-- ==== Sys2Proof/Word.lean ====
section
/-! DEFINITION. The word types of the block: bytes, bus words, markers, timestamps, and the names of the host's
callbacks. Widths are those of rule R6 (`DW` = 8, `AW` = 8, `WORD_W` = 16, `MARKER_W` = 1, `TSW` = 32). -/

namespace Sys2Proof

/-- A data byte, an address field, a lamp column, a solenoid bank, a published level (R6: `DW = AW = 8`). -/
abbrev Byte := BitVec 8

/-- One entry of DQ, format `BW16` (R90): address field in bits 15:8, data byte in bits 7:0, logical polarity (R92). -/
abbrev BusWord := BitVec 16

/-- One entry of ZQ, format `ZM` (R90): one payload bit, which nothing reads (R99). -/
abbrev Marker := BitVec 1

/-- A clock value, `TSW = 32` bits of microseconds (R245). -/
abbrev Timestamp := BitVec 32

/-- The name of a host callback. The block keeps which callback a slot holds and calls it; what its code does is the
host's (R45), so a name is all the model needs. -/
abbrev Callback := Nat

end Sys2Proof
end

