-- ==== Sys2Proof/Config.lean ====
section
/-! DEFINITION. The implementation parameters of rule R6, as plain data. A block is built from one parameter set (R211)
and keeps it (R275), so State carries the set as a constant that no step but a new construction changes: this is how
the model takes every parameter R6 marks OPEN as an argument. The reference values and the validity conditions stand
in Sys2Proof/Machine/Params.lean. Widths that R6 fixes (`DW`, `AW`, `WORD_W`, `MARKER_W`, `TSW`) are in Word.lean. -/

namespace Sys2Proof

/-- What the address field of a bus word selects (R93, R94): one of the seven targets, or `INVALID`. -/
inductive Target where
  | triacs | sol1 | sol2 | sol3 | sol4 | lcol | lrow | invalid
  deriving DecidableEq, Repr

/-- `UNFIRED` (R6, R156): what a channel contributes for a half-cycle in which it did not latch. -/
inductive Unfired where
  | hold | off | brightest
  deriving DecidableEq, Repr

/-- Which bus word is lost when the sampler pushes into a full DQ (U4 of 93_implementation_defined.md). R63 drops the
new word; the other value is the alternative U4 asks a model to admit. -/
inductive FullPush where
  | newestDropped | oldestOverwritten
  deriving DecidableEq, Repr

/-- A parameter set (R6). -/
structure Params where
  /-- `ADDR_LUT`, given by the entries that are not `INVALID`; a value not listed is `INVALID` (R93). OPEN. -/
  addrLut : List (Byte × Target)
  /-- `ZC_ADDR_BIT`: `none`, or the address bit that the lookup ignores (R95). OPEN. -/
  zcAddrBit : Option (Fin 8)
  /-- `QCAP`, the capacity of DQ in words. -/
  qcap : Nat
  /-- `ZQCAP`, the capacity of ZQ in markers. -/
  zqcap : Nat
  /-- `NCH`, the number of triac channels. -/
  nch : Nat
  /-- `CH_BIT[0..NCH-1]`, the data bit that carries each channel (R98). -/
  chBit : List Nat
  /-- `W`, the window length in half-cycles. -/
  w : Nat
  /-- `LOG2W`. -/
  log2w : Nat
  /-- `LMAX`, the maximum table level. OPEN. -/
  lmax : Nat
  /-- `STEP_T[0..LMAX-1]`, the thresholds of the step table in microseconds (R151). OPEN. -/
  stepT : List Nat
  /-- `UNFIRED` (R156). OPEN. -/
  unfired : Unfired
  /-- `ZCTIME_RESET`, the value of `zcTime` after reset and after `start`. -/
  zctimeReset : Timestamp
  /-- `CNTW`: `none` for unbounded counters, or the width at which a finite build saturates (R31). -/
  cntw : Option Nat
  /-- `DIAG`: whether the four optional diagnostic counters exist (R35). -/
  diag : Bool
  /-- `STOP_POLL_BOUND`, `none` where the wait is not bounded. OPEN; no step reads it, because the spec treats `stop` as
  waiting without bound and names no effect of reaching the bound (R201, D25, U5; assumption 12). -/
  stopPollBound : Option Nat
  /-- Which word a push to a full DQ loses (R63, U4). -/
  fullPush : FullPush
  deriving DecidableEq, Repr

end Sys2Proof
end

