-- ==== Sys2Proof/Syntax.lean ====
section
/-! DEFINITION. The instructions of the block: one constructor per row of spec/opcode_table.json (seven bus-word targets,
`INVALID`, the zero-crossing marker, nine host operations), and the encoded forms they arrive in (R90, R104, R105). -/

namespace Sys2Proof

/-- One instruction (R1: "the set of seven bus-word addresses, the zero-crossing marker, and the nine host operations"). -/
inductive Instr where
  /-- `TRIACS`: the channels of the mask fire now (R152). -/
  | triacs (data : Byte)
  /-- `SOL1`: the new value of `sol[0]` (R141). -/
  | sol1 (data : Byte)
  /-- `SOL2`: the new value of `sol[1]` (R142). -/
  | sol2 (data : Byte)
  /-- `SOL3`: the new value of `sol[2]` (R143). -/
  | sol3 (data : Byte)
  /-- `SOL4`: the new value of `sol[3]` (R144). -/
  | sol4 (data : Byte)
  /-- `LCOL`: a column code (R121). -/
  | lcol (data : Byte)
  /-- `LROW`: the row byte for the pending column (R122). -/
  | lrow (data : Byte)
  /-- `INVALID`: a word whose address selects no target (R186); the fields are kept so that no bit is dropped. -/
  | invalid (addr data : Byte)
  /-- `ZC`: the zero-crossing marker (R153). -/
  | zc (m : Marker)
  /-- `START`, host operation 0 (R200). -/
  | start
  /-- `STOP`, host operation 1 (R201). -/
  | stop
  /-- `SET_LAMP_NOTIFY`, host operation 2: a callback, or none (R203). -/
  | setLampNotify (cb : Option Callback)
  /-- `SET_SOL_NOTIFY`, host operation 3: a callback, or none (R204). -/
  | setSolNotify (cb : Option Callback)
  /-- `GET_LIGHTS`, host operation 4 (R205). -/
  | getLights
  /-- `GET_SOLENOIDS`, host operation 5 (R206). -/
  | getSolenoids
  /-- `GET_GI`, host operation 6 (R207). -/
  | getGi
  /-- `GET_STATS`, host operation 7 (R208). -/
  | getStats
  /-- `RESET_OVERFLOW`, host operation 8 (R202). -/
  | resetOverflow
  deriving DecidableEq, Repr

/-- A host call: the 4-bit operation number of R105 and the callback operand, where the call has one ("zero means unset",
R36: no operand is `none`). The numbers only identify (R105). -/
structure HostCall where
  op : BitVec 4
  arg : Option Callback
  deriving DecidableEq, Repr

/-- The encoded forms: the two queue-entry formats of R90 and the numbered host call of R105. -/
inductive Encoded where
  | bw16 (w : BusWord)
  | zm (m : Marker)
  | host (c : HostCall)
  deriving DecidableEq, Repr

/-- Why the decoder turns a form away. Bus words and markers are never turned away (R94, R103). -/
inductive DecodeReject where
  /-- Operation numbers 9 to 15 name no operation (R105). -/
  | noSuchOperation
  /-- A callback given to an operation that takes none (R105). -/
  | strayOperand
  deriving DecidableEq, Repr

end Sys2Proof
end

