-- ==== Sys2Proof/Machine/Params.lean ====
section
/-! DEFINITION. Parameter sets: the address table's lookup, the reference values of rule R6, and the validity conditions
of rule R7 that construction checks (R211). -/

namespace Sys2Proof

/-- The default `ADDR_LUT`: one bit of the address field per target, in the source's order (R93). -/
def addrLutDefault : List (Byte × Target) :=
  [(0x01, .triacs), (0x02, .sol1), (0x04, .sol2), (0x08, .sol3), (0x10, .sol4), (0x20, .lcol), (0x40, .lrow)]

/-- `ADDR_LUT[a]`: total, `INVALID` where no entry is listed (R93, R94). -/
def lutLookup : List (Byte × Target) → Byte → Target
  | [], _ => .invalid
  | (c, t) :: rest, a => if c = a then t else lutLookup rest a

/-- `ADDR_LUT[a]` of a parameter set. -/
def Params.lookup (p : Params) (a : Byte) : Target := lutLookup p.addrLut a

/-- The code of a target: the first address value that the table maps to it, if the table maps one (R93). -/
def Params.code? (p : Params) (t : Target) : Option Byte :=
  (p.addrLut.map Prod.fst).find? fun a => decide (p.lookup a = t)

/-- The reference values of R6, "the ones every vector of `95_test_vectors.md` uses". -/
def Params.reference : Params where
  addrLut := addrLutDefault
  zcAddrBit := none
  qcap := 8
  zqcap := 8
  nch := 5
  chBit := [0, 1, 2, 3, 4]
  w := 8
  log2w := 3
  lmax := 8
  stepT := [1000, 2000, 3000, 4000, 5000, 6000, 7000, 8000]
  unfired := .hold
  zctimeReset := 0
  cntw := none
  diag := true
  stopPollBound := none
  fullPush := .newestDropped

/-- No value with the ignored address bit set is a valid code (the last two conditions of R7). -/
def Params.zcBitUnused (p : Params) : Bool :=
  match p.zcAddrBit with
  | none => true
  | some b => p.addrLut.all fun e => !e.1.getLsbD b || decide (p.lookup e.1 = .invalid)

/-- The conditions of R7, in its order. -/
abbrev Params.Valid (p : Params) : Prop :=
  p.w = 2 ^ p.log2w ∧ 1 ≤ p.qcap ∧ 1 ≤ p.zqcap ∧ 1 ≤ p.nch ∧ p.nch ≤ 8 ∧
    p.chBit.length = p.nch ∧ p.chBit.Nodup ∧ (∀ b ∈ p.chBit, b < 8) ∧
    1 ≤ p.lmax ∧ p.lmax ≤ 255 ∧
    p.stepT.length = p.lmax ∧ (∀ t ∈ p.stepT, t < 2 ^ 32) ∧ p.stepT.Pairwise (· < ·) ∧
    p.lookup 0 = .invalid ∧ p.zcBitUnused = true

end Sys2Proof
end

