-- ==== Sys2Proof/Machine/State.lean ====
section
/-! DEFINITION. The state of the block (R20 to R45), its reset (R50), and the reasons a step can stop. State is plain data.
Beside the spec's own elements it holds the block's parameter set (constant, R275), the environment's clock (R245), the
schedule of the other agents' actions (R8), the host calls in progress (R72, R201) and the trace of what the host sees
(R13). -/

namespace Sys2Proof.Machine

/-- `ph`: the decoder's next phase step (R40). -/
inductive Phase where
  | stopped | check | zcdrain | poll | dispatch | notifyLamp | cbLamp | notifySol | cbSol
  deriving DecidableEq, Repr

/-- The execution contexts other than the decoder's: numbered host contexts, and the callback that runs in the decoder's
context while `ph` is `CB_LAMP` or `CB_SOL` (R212, R244, R248). -/
inductive Ctx where
  | host (n : Nat)
  | callback
  deriving DecidableEq, Repr

/-- The byte groups of the shared store (R60, R69). -/
inductive Group where
  | lamp | sol | gi
  deriving DecidableEq, Repr

/-- The fields of the diagnostics record (R208). -/
inductive StatField where
  | maxQueueDepth | eventCount | overflow | addressErrors | rows | cols | zeroCrossings | triacEvents
  deriving DecidableEq, Repr

/-- The optional half of the diagnostics record (R208), present with `DIAG`. -/
structure DiagStats where
  rows : Nat
  cols : Nat
  zeroCrossings : Nat
  triacEvents : Nat
  deriving DecidableEq, Repr

/-- The record `get_stats` returns (R208). -/
structure Stats where
  maxQueueDepth : Nat
  eventCount : Nat
  overflow : Bool
  addressErrors : Nat
  diag : Option DiagStats
  deriving DecidableEq, Repr

/-- A `get_stats` in progress: the fields read so far (R72: "a sequence of single-field reads in an unspecified order"). -/
structure StatsPart where
  maxQueueDepth : Option Nat := none
  eventCount : Option Nat := none
  overflow : Option Bool := none
  addressErrors : Option Nat := none
  rows : Option Nat := none
  cols : Option Nat := none
  zeroCrossings : Option Nat := none
  triacEvents : Option Nat := none
  deriving DecidableEq, Repr

/-- A host call that takes more than one action (R210). -/
inductive Call where
  /-- `stop` after its first action, waiting for `running = 0` (R201). -/
  | stopping
  /-- `get_gi`, with the channels read so far (R72, R207). -/
  | gi (got : List (Option Byte))
  /-- `get_stats`, with the fields read so far (R72, R208). -/
  | stats (got : StatsPart)
  deriving DecidableEq, Repr

/-- What the host sees (R13): the two notification calls and the values the getters return. -/
inductive Output where
  | lampCall (cb : Callback)
  | solCall (cb : Callback)
  | lights (c : Ctx) (v : BitVec 64)
  | solenoids (c : Ctx) (v : BitVec 32)
  | gi (c : Ctx) (levels : List Byte)
  | stats (c : Ctx) (v : Stats)
  deriving DecidableEq, Repr

/-- One entry of the schedule: whose action comes next (R8), with the input it brings. -/
inductive Event where
  /-- DECODER: its next phase step (R180). -/
  | decoder
  /-- SAMPLER: a strobe, with the electrical levels of the 16 lines (R62, R63). -/
  | strobe (raw : BusWord)
  /-- ZCSEQ: a debounced zero crossing, with the marker's payload (R65). -/
  | zeroCross (m : Marker)
  /-- CLOCK: so many microseconds pass (R245). -/
  | tick (us : Nat)
  /-- HOST: a context issues an operation (R105). -/
  | host (c : Ctx) (call : HostCall)
  /-- HOST: a context inside `stop` looks at `running` (R201, actions 2 and 3). -/
  | stopPoll (c : Ctx)
  /-- HOST: a context inside `get_gi` reads channel k (R72). -/
  | readGi (c : Ctx) (k : Nat)
  /-- HOST: a context inside `get_stats` reads one field (R72). -/
  | readStat (c : Ctx) (f : StatField)
  /-- HOST: a context enters `get_lights` or `get_solenoids`: it acquires the group's lock (R70, R274). -/
  | enterGetter (c : Ctx) (g : Group)
  /-- HOST: the running callback returns (R189). -/
  | callbackReturn
  /-- HOST: construction of the block, the "process restart" (R211, R260). -/
  | construct (p : Params)
  deriving DecidableEq, Repr

/-- The state of the block. -/
structure State where
  /-- The parameter set the block was built from (R6, R275); constant. -/
  params : Params
  /-- `lamp[0..7]` (R21). -/
  lamp : Vector Byte 8
  /-- `sol[0..3]` (R22). -/
  sol : Vector Byte 4
  /-- `bright[0..NCH-1]` (R23). -/
  bright : List Byte
  /-- `eventCount` (R31). -/
  eventCount : Nat
  /-- `addressErrorCount` (R32). -/
  addressErrorCount : Nat
  /-- `overflowFlag` (R33). -/
  overflowFlag : Bool
  /-- `maxDepth` (R34). -/
  maxDepth : Nat
  /-- `rowsDetected` (R35). -/
  rowsDetected : Nat
  /-- `colsDetected` (R35). -/
  colsDetected : Nat
  /-- `zcDetected` (R35). -/
  zcDetected : Nat
  /-- `triacDetected` (R35). -/
  triacDetected : Nat
  /-- `pendingCol`: a column 0 to 7, or `COL_INVALID` as `none` (R24). -/
  pendingCol : Option (Fin 8)
  /-- `latched[0..NCH-1]` (R25). -/
  latched : List Bool
  /-- `acc[0..NCH-1]` (R26). -/
  acc : List Nat
  /-- `zcTime` (R27). -/
  zcTime : Timestamp
  /-- `zcWin` (R28). -/
  zcWin : Nat
  /-- `lightsChanged` (R29). -/
  lightsChanged : Bool
  /-- `solChanged` (R29). -/
  solChanged : Bool
  /-- `cur` (R30). -/
  cur : BusWord
  /-- `ph` (R40). -/
  ph : Phase
  /-- `enable` (R37). -/
  enable : Bool
  /-- `running` (R38). -/
  running : Bool
  /-- `samplerActive` (R39). -/
  samplerActive : Bool
  /-- `lampCb`, `none` where unset (R36). -/
  lampCb : Option Callback
  /-- `solCb`, `none` where unset (R36). -/
  solCb : Option Callback
  /-- `lampLock`: free, or held by a reader (R42); the decoder's own hold lies inside one action. -/
  lampLock : Option Ctx
  /-- `solLock`: free, or held by a reader (R42). -/
  solLock : Option Ctx
  /-- `DQ`, oldest first (R43, R61). -/
  dq : List BusWord
  /-- `ZQ`, oldest first (R43, R61). -/
  zq : List Marker
  /-- The environment's clock in unbounded microseconds (R245); the block reads it modulo `2^TSW`. -/
  clock : Nat
  /-- The schedule: the actions still to come, in their order (R8, R77). -/
  script : List Event
  /-- The context whose operation runs now; set when an operation is issued. -/
  caller : Ctx
  /-- The host calls in progress (R210). -/
  calls : List (Ctx × Call)
  /-- What the host has seen, newest first (R13). -/
  out : List Output
  deriving DecidableEq, Repr

/-- The block just constructed from a parameter set (R50, R211), with a clock reading and a schedule. -/
def State.init (p : Params) (clock : Nat) (script : List Event) : State where
  params := p
  lamp := Vector.replicate 8 0
  sol := Vector.replicate 4 0
  bright := List.replicate p.nch 0
  eventCount := 0
  addressErrorCount := 0
  overflowFlag := false
  maxDepth := 0
  rowsDetected := 0
  colsDetected := 0
  zcDetected := 0
  triacDetected := 0
  pendingCol := none
  latched := List.replicate p.nch false
  acc := List.replicate p.nch 0
  zcTime := p.zctimeReset
  zcWin := 0
  lightsChanged := false
  solChanged := false
  cur := 0
  ph := .stopped
  enable := false
  running := false
  samplerActive := false
  lampCb := none
  solCb := none
  lampLock := none
  solLock := none
  dq := []
  zq := []
  clock := clock
  script := script
  caller := .host 0
  calls := []
  out := []

/-- The machine right after reset (R50, R261, R262): the block built with the reference parameters, nothing scheduled. The
values of `cur`, `clock` and the model's own fields are the model's choice (assumptions 3, 4 and 5). -/
def State.reset : State := State.init Params.reference 0 []

/-- What stops the machine with a fault. -/
inductive Fault where
  /-- `ConfigurationError` (R233): construction with a parameter set that is not valid; no block exists. Raised by
  `construct` only. Safe: it is the spec's own error. -/
  | configurationError
  deriving DecidableEq, Repr

/-- What the machine refuses: an instruction without a meaning, or an action that the spec gives no step
(93_implementation_defined.md, treatment "refuse"). Each is safe: the model stops where the spec says nothing. -/
inductive Refusal where
  /-- An instruction that has no meaning yet; raised by `exec`'s refused arms (none is left). -/
  | notModelled (mnemonic : String)
  /-- `start` outside its precondition `running = 0` and `samplerActive = 0` (R200, U6); raised by `execStart`. -/
  | startWhileActive
  /-- `start` or `stop` while a `stop` is in progress (R267, U6); raised by `execStart` and `execStop`. -/
  | startStopOverlap
  /-- A mutating operation called from a callback (R209, R212, U7); raised by the mutating host operations. -/
  | mutatingFromCallback
  /-- A host operation number that names no operation, or an operand where none is taken (R105); raised by the fetch. -/
  | badHostCall (r : DecodeReject)
  /-- A scheduled action that its agent cannot take in this state: a callback's action when no callback runs, a read of a
  call that is not in progress, a second call of a context that is inside one; raised by the fetch. -/
  | notEnabled
  deriving DecidableEq, Repr

/-- The outcome of an action. -/
abbrev Result := Host.Outcome State Fault Refusal

end Sys2Proof.Machine
end

