-- ==== Sys2Proof/Machine/Operands.lean ====
section
/-! DEFINITION. Operand forms: the column table, the triac mask, the clock read, the step table, the fill value, and the
packing of the snapshots (R73, R96 to R98, R151, R156, R245). -/

namespace Sys2Proof.Machine

/-- `COL_LUT` (R97): bit i alone selects column i; every other byte is `COL_INVALID`. -/
def colLut (data : Byte) : Option (Fin 8) :=
  match data.toNat with
  | 0x01 => some 0
  | 0x02 => some 1
  | 0x04 => some 2
  | 0x08 => some 3
  | 0x10 => some 4
  | 0x20 => some 5
  | 0x40 => some 6
  | 0x80 => some 7
  | _ => none

/-- `CH_BIT[k]` (R98). -/
def chBitOf (p : Params) (k : Nat) : Nat := p.chBit.getD k 8

/-- `bright[k]`. -/
def State.brightAt (s : State) (k : Nat) : Byte := s.bright.getD k 0

/-- `latched[k]`. -/
def State.latchedAt (s : State) (k : Nat) : Bool := s.latched.getD k false

/-- `acc[k]`. -/
def State.accAt (s : State) (k : Nat) : Nat := s.acc.getD k 0

/-- The test of R152: `data[CH_BIT[k]] == 1 and latched[k] == 0`. -/
def State.fires (s : State) (data : Byte) (k : Nat) : Bool :=
  data.getLsbD (chBitOf s.params k) && !s.latchedAt k

/-- `now()` (R245): the clock modulo `2^TSW`. -/
def State.now (s : State) : Timestamp := BitVec.ofNat 32 s.clock

/-- `d <- (t - zcTime) mod 2^TSW` (R152, R162). -/
def State.delay (s : State) : Timestamp := s.now - s.zcTime

/-- `Level(d)` (R151): `LMAX` less the number of thresholds that are at most d. -/
def level (p : Params) (d : Timestamp) : Nat := p.lmax - p.stepT.countP fun t => decide (t ≤ d.toNat)

/-- `Fill(k)` (R156). -/
def State.fill (s : State) (k : Nat) : Nat :=
  match s.params.unfired with
  | .hold => (s.brightAt k).toNat
  | .off => 0
  | .brightest => s.params.lmax

/-- A list of bytes as one number, the first byte least significant (R73). -/
def packBytes : List Byte → Nat
  | [] => 0
  | b :: rest => b.toNat + 256 * packBytes rest

/-- `get_lights` packing (R73, R205): `L[8i+7 : 8i] = lamp[i]`. -/
def packLights (v : Vector Byte 8) : BitVec 64 := BitVec.ofNat 64 (packBytes v.toList)

/-- `get_solenoids` packing (R73, R206): `S[8i+7 : 8i] = sol[i]`. -/
def packSolenoids (v : Vector Byte 4) : BitVec 32 := BitVec.ofNat 32 (packBytes v.toList)

end Sys2Proof.Machine
end

