-- ==== Sys2Proof/Machine/Flags.lean ====
section
/-! DEFINITION. Counters and sticky flags: the saturating increment, the diagnostic increment, the two recorded errors
and the depth statistic (R31 to R35, R230 to R232). -/

namespace Sys2Proof.Machine

/-- The increment of a counter: unbounded, or saturating at `2^CNTW - 1` (R31, D21). -/
def bump (p : Params) (n : Nat) : Nat :=
  match p.cntw with
  | none => n + 1
  | some b => if n < 2 ^ b - 1 then n + 1 else n

/-- The increment of an optional diagnostic counter, which exists only with `DIAG` (R35). -/
def diagBump (p : Params) (n : Nat) : Nat := if p.diag then bump p n else n

/-- `raise BusOverflow()` (R231): the sticky flag, nothing else. -/
def raiseBusOverflow (s : State) : State := { s with overflowFlag := true }

/-- `raise AddressError()` (R232): the count, nothing else. -/
def raiseAddressError (s : State) : State :=
  { s with addressErrorCount := bump s.params s.addressErrorCount }

/-- One more event (R184, R187, R188). -/
def countEvent (s : State) : State := { s with eventCount := bump s.params s.eventCount }

/-- The statistics of a POLL that saw depth n (R184): the maximum, and the overflow test against `QCAP`. -/
def recordDepth (n : Nat) (s : State) : State :=
  let t := { s with maxDepth := max s.maxDepth n }
  if n = s.params.qcap then raiseBusOverflow t else t

end Sys2Proof.Machine
end

