-- ==== Sys2Proof/Machine/Ops.lean ====
section
/-! DEFINITION. The shared operations: phase changes, outputs, the locked store, the queues, the notification call and its
return (the block's "exception" entry and return, R189, R240, R241), and the table of host calls in progress. -/

namespace Sys2Proof.Machine

/-- `ph <- P` (R10). -/
def goTo (P : Phase) (s : State) : State := { s with ph := P }

/-- The host sees an output (R13). -/
def emit (o : Output) (s : State) : State := { s with out := o :: s.out }

/-! ### The shared store (R69, R70) -/

/-- One byte of a group, `none` outside it: `MemRead(G, i, 1)` (R10, R69). -/
def readByte (s : State) (g : Group) (i : Nat) : Option Byte :=
  match g with
  | .lamp => s.lamp[i]?
  | .sol => s.sol[i]?
  | .gi => s.bright[i]?

/-- The store part of `MemWrite(G, i, 1, v)` (R10). -/
def writeByte (g : Group) (i : Nat) (v : Byte) (s : State) : State :=
  match g with
  | .lamp => { s with lamp := s.lamp.setIfInBounds i v }
  | .sol => { s with sol := s.sol.setIfInBounds i v }
  | .gi => { s with bright := s.bright.set i v }

/-- The lock of a group; group GI has none (R42, R70). -/
def lockOf (s : State) (g : Group) : Option Ctx :=
  match g with
  | .lamp => s.lampLock
  | .sol => s.solLock
  | .gi => none

/-- Set the holder of a group's lock. -/
def setLock (g : Group) (h : Option Ctx) (s : State) : State :=
  match g with
  | .lamp => { s with lampLock := h }
  | .sol => { s with solLock := h }
  | .gi => s

/-- `acquire; MemWrite(G, i, 1, v); release` as one action of the decoder (R70); `none` while a reader holds the lock: the
decoder "waits for it". -/
def lockedWrite (g : Group) (i : Nat) (v : Byte) (s : State) : Option State :=
  match lockOf s g with
  | none => some (writeByte g i v s)
  | some _ => none

/-- A getter's `acquire; MemRead(G, 0, n); release` as one action (R70): the state with the lock free afterwards, `none`
while another context holds the lock. A context that entered the getter before holds the lock itself. -/
def lockedRead (g : Group) (s : State) : Option State :=
  match lockOf s g with
  | none => some s
  | some c => if c = s.caller then some (setLock g none s) else none

/-! ### The queues (R61 to R66) -/

/-- The contents of DQ after `push(DQ, w)` (R63; which word a full queue loses is U4). -/
def pushWord (p : Params) (w : BusWord) (q : List BusWord) : List BusWord :=
  if q.length < p.qcap then q ++ [w]
  else match p.fullPush with
    | .newestDropped => q
    | .oldestOverwritten => q.tail ++ [w]

/-- The contents of ZQ after `push(ZQ, m)` (R65): a full queue loses the marker and records nothing. -/
def pushMarker (p : Params) (m : Marker) (q : List Marker) : List Marker :=
  if q.length < p.zqcap then q ++ [m] else q

/-! ### Notifications (R187 to R189, R237 to R241) -/

/-- `notify(slot)` (R10, R189): with the slot set, the call is an output and the decoder waits in the callback's phase; with
the slot unset it goes on. Nothing is saved (R240). -/
def notify (slot : Option Callback) (call : Callback → Output) (inside after : Phase) (s : State) : State :=
  match slot with
  | some cb => emit (call cb) (goTo inside s)
  | none => goTo after s

/-- The return of a callback (R189, R241): `CB_LAMP -> NOTIFY_SOL`, `CB_SOL -> CHECK`; `none` where none runs. -/
def callbackReturned (s : State) : Option State :=
  match s.ph with
  | .cbLamp => some (goTo .notifySol s)
  | .cbSol => some (goTo .check s)
  | .stopped => none
  | .check => none
  | .zcdrain => none
  | .poll => none
  | .dispatch => none
  | .notifyLamp => none
  | .notifySol => none

/-- Whether a callback runs: `ph` is `CB_LAMP` or `CB_SOL`. -/
def inCallback (s : State) : Bool := decide (s.ph = .cbLamp) || decide (s.ph = .cbSol)

/-! ### Host calls in progress (R201, R210) -/

/-- The call a context is inside, if any. -/
def callOf (c : Ctx) (s : State) : Option Call := (s.calls.find? fun e => decide (e.1 = c)).map Prod.snd

/-- The context leaves its call. -/
def endCall (c : Ctx) (s : State) : State := { s with calls := s.calls.filter fun e => decide (e.1 ≠ c) }

/-- The context is inside the call k. -/
def setCall (c : Ctx) (k : Call) (s : State) : State :=
  { s with calls := (c, k) :: s.calls.filter fun e => decide (e.1 ≠ c) }

/-- Whether some context is inside `stop` (R267). -/
def stopInProgress (s : State) : Bool := s.calls.any fun e => decide (e.2 = .stopping)

/-- A mutating operation is refused from a callback (R209, R212, U7). -/
def unlessCallback (s : State) (r : Result) : Result :=
  if s.caller = .callback then .refused .mutatingFromCallback else r

end Sys2Proof.Machine
end

