-- ==== Sys2Proof/Machine/HostOps.lean ====
section
/-! DEFINITION. The nine host operations (R200 to R214), as the action that issues them; the later actions of `stop`, `get_gi`
and `get_stats` are in Environment.lean. -/

namespace Sys2Proof.Machine

/-- The effect of `start` (R200): queues emptied, private registers and control bits set; store and slots kept. -/
def started (s : State) : State :=
  { s with
    dq := []
    zq := []
    pendingCol := none
    latched := List.replicate s.params.nch false
    acc := List.replicate s.params.nch 0
    zcTime := s.params.zctimeReset
    zcWin := 0
    lightsChanged := false
    solChanged := false
    samplerActive := true
    enable := true
    running := true
    ph := .check }

/-- `start()` (R200), refused outside its precondition (U6, U7). -/
def execStart (s : State) : Result :=
  unlessCallback s
    (if stopInProgress s then .refused .startStopOverlap
     else if s.running || s.samplerActive then .refused .startWhileActive
     else .next (started s))

/-- `stop()` (R201), its first action: `enable <- 0`. While the block runs the context then waits (`stopPoll`); on a stopped
block the wait is over at once (corner case a). -/
def execStop (s : State) : Result :=
  unlessCallback s
    (if stopInProgress s then .refused .startStopOverlap
     else if s.running then .next (setCall s.caller .stopping { s with enable := false })
     else .next { s with enable := false, samplerActive := false })

/-- `set_lamp_notify(cb)` (R203). -/
def execSetLampNotify (cb : Option Callback) (s : State) : Result :=
  unlessCallback s (.next { s with lampCb := cb })

/-- `set_solenoid_notify(cb)` (R204). -/
def execSetSolNotify (cb : Option Callback) (s : State) : Result :=
  unlessCallback s (.next { s with solCb := cb })

/-- `get_lights()` (R205): the packed snapshot goes to the caller. While another context holds `lampLock` the caller waits
(R70). -/
def execGetLights (s : State) : Result :=
  match lockedRead .lamp s with
  | none => .next s
  | some t => .next (emit (.lights s.caller (packLights s.lamp)) t)

/-- `get_solenoids()` (R206); waits as `get_lights` does, for `solLock`. -/
def execGetSolenoids (s : State) : Result :=
  match lockedRead .sol s with
  | none => .next s
  | some t => .next (emit (.solenoids s.caller (packSolenoids s.sol)) t)

/-- `get_gi()` (R207): the call begins, with no channel read yet; the reads are actions of their own (R72, R210). -/
def execGetGi (s : State) : Result :=
  .next (setCall s.caller (.gi (List.replicate s.params.nch none)) s)

/-- `get_stats()` (R208): the call begins, with no field read yet; the reads are actions of their own (R72, R210). -/
def execGetStats (s : State) : Result := .next (setCall s.caller (.stats {}) s)

/-- `reset_overflow()` (R202). -/
def execResetOverflow (s : State) : Result := unlessCallback s (.next { s with overflowFlag := false })

end Sys2Proof.Machine
end

