-- ==== Sys2Proof/Machine/Lamp.lean ====
section
/-! DEFINITION. The lamp family: `LCOL` and `LROW` (R120 to R124). -/

namespace Sys2Proof.Machine

/-- `LCOL` (R121): a zero byte leaves the pending column as it is; any other byte replaces it by its table entry. -/
def execLcol (data : Byte) (s : State) : Result :=
  .next (goTo .notifyLamp
    { s with
      colsDetected := diagBump s.params s.colsDetected
      pendingCol := if data = 0 then s.pendingCol else colLut data })

/-- Where an `LROW` stores its byte: the pending column, when the byte differs from the stored one (R122). -/
def lrowStore (data : Byte) (s : State) : Option (Fin 8) :=
  match s.pendingCol with
  | none => none
  | some c => if s.lamp[c] = data then none else some c

/-- The part of `LROW` that every form shares: the row count and the one-shot latch (R122). -/
def rowTaken (s : State) : State :=
  goTo .notifyLamp { s with rowsDetected := diagBump s.params s.rowsDetected, pendingCol := none }

/-- `LROW` (R122): store the byte in the pending column if it differs, and clear the latch. While a reader holds `lampLock`
a storing `LROW` waits: the action is not taken and the decoder tries it again (R70, R191). -/
def execLrow (data : Byte) (s : State) : Result :=
  match lrowStore data s with
  | none => .next (rowTaken s)
  | some c =>
    match lockedWrite .lamp c.val data (rowTaken s) with
    | none => .next s
    | some t => .next { t with lightsChanged := true }

end Sys2Proof.Machine
end

