-- ==== Sys2Proof/Machine/Loop.lean ====
section
/-! DEFINITION. The decoder loop's own phase steps (R180 to R189) and the `INVALID` word (R186). The phases that run an
instruction, DISPATCH and the marker step of ZCDRAIN, are in Fetch.lean. -/

namespace Sys2Proof.Machine

/-- `INVALID` (R186): one address error; the word is discarded. -/
def execInvalid (_addr _data : Byte) (s : State) : Result := .next (goTo .notifyLamp (raiseAddressError s))

/-- CHECK (R182). -/
def checkStep (s : State) : State :=
  if s.enable then goTo .zcdrain s else goTo .stopped { s with running := false }

/-- POLL (R184): the depth is read, and recorded, before the pop. -/
def pollStep (s : State) : State :=
  match s.dq with
  | [] => goTo .check s
  | w :: rest => goTo .dispatch (countEvent { recordDepth s.dq.length s with cur := w, dq := rest })

/-- NOTIFY_LAMP (R187). -/
def notifyLampStep (s : State) : State :=
  if s.lightsChanged then
    notify s.lampCb .lampCall .cbLamp .notifySol { countEvent s with lightsChanged := false }
  else goTo .notifySol s

/-- NOTIFY_SOL (R188). -/
def notifySolStep (s : State) : State :=
  if s.solChanged then
    notify s.solCb .solCall .cbSol .check { countEvent s with solChanged := false }
  else goTo .check s

end Sys2Proof.Machine
end

