-- ==== Sys2Proof/Machine/Solenoid.lean ====
section
/-! DEFINITION. The solenoid family: `SOL1` to `SOL4` (R140 to R144). -/

namespace Sys2Proof.Machine

/-- The family rule (R140): store the byte in `sol[i]` if it differs. While a reader holds `solLock` a storing word waits
(R70, R191). -/
def routeSol (i : Fin 4) (data : Byte) (s : State) : Result :=
  if s.sol[i] = data then .next (goTo .notifyLamp s)
  else
    match lockedWrite .sol i.val data (goTo .notifyLamp s) with
    | none => .next s
    | some t => .next { t with solChanged := true }

/-- `SOL1` (R141). -/
def execSol1 (data : Byte) (s : State) : Result := routeSol 0 data s

/-- `SOL2` (R142). -/
def execSol2 (data : Byte) (s : State) : Result := routeSol 1 data s

/-- `SOL3` (R143). -/
def execSol3 (data : Byte) (s : State) : Result := routeSol 2 data s

/-- `SOL4` (R144). -/
def execSol4 (data : Byte) (s : State) : Result := routeSol 3 data s

end Sys2Proof.Machine
end

