-- ==== Sys2Proof/Machine/Triac.lean ====
section
/-! DEFINITION. The triac family: the phase-brightness correlator (R150 to R163). -/

namespace Sys2Proof.Machine

/-- `TRIACS` (R152): every fired channel that has not latched this half-cycle takes the level of the delay. -/
def execTriacs (data : Byte) (s : State) : Result :=
  .next (goTo .notifyLamp
    { s with
      triacDetected := diagBump s.params s.triacDetected
      acc := s.acc.mapIdx fun k a => if s.fires data k then a + level s.params s.delay else a
      latched := s.latched.mapIdx fun k b => b || s.fires data k })

/-- `HalfCycleClose()` (R154): a channel that did not latch adds its fill value; every latch flag is cleared. -/
def halfCycleClose (s : State) : State :=
  { s with
    acc := s.acc.mapIdx fun k a => if s.latchedAt k then a else a + s.fill k
    latched := s.latched.map fun _ => false }

/-- `Rollover()` (R155): publish `acc[k] >> LOG2W` and restart the window. -/
def rollover (s : State) : State :=
  { s with
    bright := s.acc.map fun a => BitVec.ofNat 8 (a >>> s.params.log2w)
    acc := s.acc.map fun _ => 0
    latched := s.latched.map fun _ => false }

/-- The count of markers toward the window, with the rollover at the W-th (R153). -/
def countMarker (s : State) : State :=
  if s.zcWin + 1 = s.params.w then { rollover s with zcWin := 0 } else { s with zcWin := s.zcWin + 1 }

/-- `ZC` (R153), the marker already popped: stamp it, close the half-cycle, count it. The payload is ignored (R99). -/
def execZc (_m : Marker) (s : State) : Result :=
  .next (goTo .zcdrain
    (countMarker
      { halfCycleClose s with
        zcDetected := diagBump s.params s.zcDetected
        zcTime := s.now }))

end Sys2Proof.Machine
end

