-- ==== Sys2Proof/Machine/Dispatch.lean ====
section
/-! DEFINITION. One arm per constructor of Instr: each instruction's meaning. -/

namespace Sys2Proof.Machine

def exec (i : Instr) (s : State) : Host.Outcome State Fault Refusal :=
  match i with
  | .triacs data => Sys2Proof.Machine.execTriacs data s
  | .sol1 data => Sys2Proof.Machine.execSol1 data s
  | .sol2 data => Sys2Proof.Machine.execSol2 data s
  | .sol3 data => Sys2Proof.Machine.execSol3 data s
  | .sol4 data => Sys2Proof.Machine.execSol4 data s
  | .lcol data => Sys2Proof.Machine.execLcol data s
  | .lrow data => Sys2Proof.Machine.execLrow data s
  | .invalid addr data => Sys2Proof.Machine.execInvalid addr data s
  | .zc m => Sys2Proof.Machine.execZc m s
  | .start => Sys2Proof.Machine.execStart s
  | .stop => Sys2Proof.Machine.execStop s
  | .setLampNotify cb => Sys2Proof.Machine.execSetLampNotify cb s
  | .setSolNotify cb => Sys2Proof.Machine.execSetSolNotify cb s
  | .getLights => Sys2Proof.Machine.execGetLights s
  | .getSolenoids => Sys2Proof.Machine.execGetSolenoids s
  | .getGi => Sys2Proof.Machine.execGetGi s
  | .getStats => Sys2Proof.Machine.execGetStats s
  | .resetOverflow => Sys2Proof.Machine.execResetOverflow s

end Sys2Proof.Machine
end

