-- ==== Sys2Proof/Decode.lean ====
section
/-! DEFINITION. Decoding of bus words, markers and host calls (R90 to R95, R104, R105), total on every form, and the
encoder written from the same tables. -/

namespace Sys2Proof

/-- `addr = w[15:8]` (R91). -/
def addrField (w : BusWord) : Byte := w.extractLsb' 8 8

/-- `data = w[7:0]` (R91). -/
def dataField (w : BusWord) : Byte := w.extractLsb' 0 8

/-- The bus word `{addr, data}` (R90). -/
def busWord (addr data : Byte) : BusWord := addr ++ data

/-- `Mask` (R95): address bit `ZC_ADDR_BIT` cleared, the identity where the parameter is `none`. -/
def maskAddr (p : Params) (a : Byte) : Byte :=
  match p.zcAddrBit with
  | none => a
  | some b => a &&& ~~~((1 : Byte) <<< b.val)

/-- `Target(w) = ADDR_LUT[Mask(w[15:8])]` (R94). -/
def targetOf (p : Params) (w : BusWord) : Target := p.lookup (maskAddr p (addrField w))

/-- The instruction a bus word stands for: the seven rows first, `INVALID` otherwise (R94, R104). -/
def decodeWord (p : Params) (w : BusWord) : Instr :=
  match targetOf p w with
  | .triacs => .triacs (dataField w)
  | .sol1 => .sol1 (dataField w)
  | .sol2 => .sol2 (dataField w)
  | .sol3 => .sol3 (dataField w)
  | .sol4 => .sol4 (dataField w)
  | .lcol => .lcol (dataField w)
  | .lrow => .lrow (dataField w)
  | .invalid => .invalid (addrField w) (dataField w)

/-- A marker is the instruction `ZC`, whatever its payload (R99). -/
def decodeMarker (m : Marker) : Instr := .zc m

/-- An operation that takes no callback. -/
def withoutOperand (i : Instr) : Option Callback → Except DecodeReject Instr
  | none => .ok i
  | some _ => .error .strayOperand

/-- The operation a host call names (R105); 9 to 15 name none. -/
def decodeCall (c : HostCall) : Except DecodeReject Instr :=
  match c.op.toNat with
  | 0 => withoutOperand .start c.arg
  | 1 => withoutOperand .stop c.arg
  | 2 => .ok (.setLampNotify c.arg)
  | 3 => .ok (.setSolNotify c.arg)
  | 4 => withoutOperand .getLights c.arg
  | 5 => withoutOperand .getSolenoids c.arg
  | 6 => withoutOperand .getGi c.arg
  | 7 => withoutOperand .getStats c.arg
  | 8 => withoutOperand .resetOverflow c.arg
  | _ => .error .noSuchOperation

/-- The decoder, on all three forms. -/
def decode (p : Params) : Encoded → Except DecodeReject Instr
  | .bw16 w => .ok (decodeWord p w)
  | .zm m => .ok (decodeMarker m)
  | .host c => decodeCall c

/-- The bus word of a target: its code in the address field. A table that gives the target no code leaves address 0,
which is `INVALID` (R7); such an instruction is not well-formed. -/
def encodeTarget (p : Params) (t : Target) (data : Byte) : Encoded := .bw16 (busWord ((p.code? t).getD 0) data)

/-- The encoded form of an instruction (R90, R104, R105). -/
def encode (p : Params) : Instr → Encoded
  | .triacs d => encodeTarget p .triacs d
  | .sol1 d => encodeTarget p .sol1 d
  | .sol2 d => encodeTarget p .sol2 d
  | .sol3 d => encodeTarget p .sol3 d
  | .sol4 d => encodeTarget p .sol4 d
  | .lcol d => encodeTarget p .lcol d
  | .lrow d => encodeTarget p .lrow d
  | .invalid a d => .bw16 (busWord a d)
  | .zc m => .zm m
  | .start => .host ⟨0, none⟩
  | .stop => .host ⟨1, none⟩
  | .setLampNotify cb => .host ⟨2, cb⟩
  | .setSolNotify cb => .host ⟨3, cb⟩
  | .getLights => .host ⟨4, none⟩
  | .getSolenoids => .host ⟨5, none⟩
  | .getGi => .host ⟨6, none⟩
  | .getStats => .host ⟨7, none⟩
  | .resetOverflow => .host ⟨8, none⟩

/-- The form that an opcode-table word of `nbits` bits stands for (assumption 16): 16 bits a bus word, 1 bit a marker, 4
bits (8 in whole bytes) a host operation number with no callback. -/
def tableForm (nbits w : Nat) : Option Encoded :=
  match nbits with
  | 16 => if w < 65536 then some (.bw16 (BitVec.ofNat 16 w)) else none
  | 1 => if w < 2 then some (.zm (BitVec.ofNat 1 w)) else none
  | 4 => if w < 16 then some (.host ⟨BitVec.ofNat 4 w, none⟩) else none
  | 8 => if w < 16 then some (.host ⟨BitVec.ofNat 4 w, none⟩) else none
  | _ => none

/-- The instruction the decoder reads from a word numbered as spec/opcode_table.json numbers it, with the reference
parameters. -/
def decodeTableWord (nbits w : Nat) : Option Instr :=
  match tableForm nbits w with
  | none => none
  | some e => (decode Params.reference e).toOption

end Sys2Proof
end

