-- ==== Sys2Proof/Machine/Environment.lean ====
section
/-! DEFINITION. The actions of the other agents (R8): the producers, the clock, construction, the later actions of the host's
longer calls, and a reader's early acquire of a lock. -/

namespace Sys2Proof.Machine

/-- SAMPLER (R63, R64, R66): the line levels inverted once (R92) and pushed; nothing is observed while the sequencers are off. -/
def strobed (raw : BusWord) (s : State) : State :=
  if s.samplerActive then { s with dq := pushWord s.params (~~~raw) s.dq } else s

/-- ZCSEQ (R65, R66). -/
def zeroCrossed (m : Marker) (s : State) : State :=
  if s.samplerActive then { s with zq := pushMarker s.params m s.zq } else s

/-- CLOCK (R245): time never decreases. -/
def ticked (us : Nat) (s : State) : State := { s with clock := s.clock + us }

/-- Construction (R211, R233, R260): a valid set gives a block in the reset state; an invalid one raises
`ConfigurationError`. The clock is the environment's and goes on. -/
def construct (p : Params) (s : State) : Result :=
  if p.Valid then .next (State.init p s.clock s.script) else .fault .configurationError

/-- `stop` looks at `running` (R201, actions 2 and 3): still running, it waits on; else it switches the producers off and
returns. -/
def stopPolled (c : Ctx) (s : State) : Result :=
  if callOf c s = some .stopping then
    if s.running then .next s else .next (endCall c { s with samplerActive := false })
  else .refused .notEnabled

/-- The bytes of a `get_gi` whose channels are all read. -/
def allRead : List (Option Byte) → Option (List Byte)
  | [] => some []
  | none :: _ => none
  | some b :: rest =>
    match allRead rest with
    | none => none
    | some bs => some (b :: bs)

/-- One single-channel read of `get_gi` (R72, R207); after the last one the call returns. -/
def giRead (c : Ctx) (k : Nat) (s : State) : Result :=
  match callOf c s with
  | some (.gi got) =>
    if got[k]? = some none then
      match allRead (got.set k (some (s.brightAt k))) with
      | some bytes => .next (emit (.gi c bytes) (endCall c s))
      | none => .next (setCall c (.gi (got.set k (some (s.brightAt k)))) s)
    else .refused .notEnabled
  | some .stopping => .refused .notEnabled
  | some (.stats _) => .refused .notEnabled
  | none => .refused .notEnabled

/-- A field of a `get_stats` in progress: whether it is still to be read. The four optional ones exist only with `DIAG`. -/
def StatsPart.lacks (got : StatsPart) (diag : Bool) : StatField → Bool
  | .maxQueueDepth => got.maxQueueDepth.isNone
  | .eventCount => got.eventCount.isNone
  | .overflow => got.overflow.isNone
  | .addressErrors => got.addressErrors.isNone
  | .rows => diag && got.rows.isNone
  | .cols => diag && got.cols.isNone
  | .zeroCrossings => diag && got.zeroCrossings.isNone
  | .triacEvents => diag && got.triacEvents.isNone

/-- The record after one field is read (R208). -/
def StatsPart.take (got : StatsPart) (s : State) : StatField → StatsPart
  | .maxQueueDepth => { got with maxQueueDepth := some s.maxDepth }
  | .eventCount => { got with eventCount := some s.eventCount }
  | .overflow => { got with overflow := some s.overflowFlag }
  | .addressErrors => { got with addressErrors := some s.addressErrorCount }
  | .rows => { got with rows := some s.rowsDetected }
  | .cols => { got with cols := some s.colsDetected }
  | .zeroCrossings => { got with zeroCrossings := some s.zcDetected }
  | .triacEvents => { got with triacEvents := some s.triacDetected }

/-- The optional half of a record whose fields are all read (R208). -/
def StatsPart.diagDone (got : StatsPart) : Option DiagStats :=
  match got.rows, got.cols, got.zeroCrossings, got.triacEvents with
  | some r, some c, some z, some t => some ⟨r, c, z, t⟩
  | _, _, _, _ => none

/-- The record of a `get_stats` whose fields are all read (R208). -/
def StatsPart.done (got : StatsPart) (diag : Bool) : Option Stats :=
  match got.maxQueueDepth, got.eventCount, got.overflow, got.addressErrors with
  | some m, some e, some o, some a =>
    if diag then got.diagDone.map fun d => ⟨m, e, o, a, some d⟩ else some ⟨m, e, o, a, none⟩
  | _, _, _, _ => none

/-- One single-field read of `get_stats` (R72, R208); after the last one the call returns. -/
def statRead (c : Ctx) (f : StatField) (s : State) : Result :=
  match callOf c s with
  | some (.stats got) =>
    if got.lacks s.params.diag f then
      match (got.take s f).done s.params.diag with
      | some v => .next (emit (.stats c v) (endCall c s))
      | none => .next (setCall c (.stats (got.take s f)) s)
    else .refused .notEnabled
  | some .stopping => .refused .notEnabled
  | some (.gi _) => .refused .notEnabled
  | none => .refused .notEnabled

/-- Whether a context can issue instruction i: it is inside no call, it holds a lock only as the getter that it issues now,
and the callback's context exists only while a callback runs (R189, R212). -/
def ready (c : Ctx) (i : Instr) (s : State) : Bool :=
  (callOf c s).isNone &&
  (decide (s.lampLock ≠ some c) || decide (i = .getLights)) &&
  (decide (s.solLock ≠ some c) || decide (i = .getSolenoids)) &&
  (decide (c ≠ .callback) || inCallback s)

/-- A context enters `get_lights` or `get_solenoids` and acquires the group's lock if it is free (R70, R274); a held lock
makes it wait. -/
def getterEntered (c : Ctx) (g : Group) (s : State) : Result :=
  if ready c .start s && decide (g ≠ .gi) then
    match lockOf s g with
    | none => .next (setLock g (some c) s)
    | some _ => .next s
  else .refused .notEnabled

/-- The running callback returns (R189); it cannot return from inside a getter. -/
def callbackReturn (s : State) : Result :=
  match callbackReturned s with
  | some t => if ready .callback .start s then .next t else .refused .notEnabled
  | none => .refused .notEnabled

end Sys2Proof.Machine
end

