-- ==== Sys2Proof/Machine/Fetch.lean ====
section
/-! DEFINITION. What comes next: the head of the schedule says which agent acts (R8); with nothing scheduled the decoder
acts (R280). An instruction reaches the machine from DQ through `cur` (DISPATCH, R185), from ZQ (ZCDRAIN, R183) or as a
host call (R105). -/

namespace Sys2Proof.Machine

/-- What an action turns out to be: an instruction to run in a state, or an outcome. -/
inductive Fetched where
  | run (i : Instr) (s : State)
  | done (r : Result)

/-- The decoder's next phase step (R180 to R188). It takes none while stopped or while a callback runs (R182, R189). -/
def decoderFetch (s : State) : Fetched :=
  match s.ph with
  | .stopped => .done (.next s)
  | .check => .done (.next (checkStep s))
  | .zcdrain =>
    match s.zq with
    | [] => .done (.next (goTo .poll s))
    | m :: rest => .run (decodeMarker m) { s with zq := rest }
  | .poll => .done (.next (pollStep s))
  | .dispatch => .run (decodeWord s.params s.cur) s
  | .notifyLamp => .done (.next (notifyLampStep s))
  | .cbLamp => .done (.next s)
  | .notifySol => .done (.next (notifySolStep s))
  | .cbSol => .done (.next s)

/-- A host context issues an operation. -/
def hostFetch (c : Ctx) (call : HostCall) (s : State) : Fetched :=
  match decodeCall call with
  | .error r => .done (.refused (.badHostCall r))
  | .ok i => if ready c i s then .run i { s with caller := c } else .done (.refused .notEnabled)

/-- The action a schedule entry names. -/
def eventFetch (e : Event) (s : State) : Fetched :=
  match e with
  | .decoder => decoderFetch s
  | .strobe raw => .done (.next (strobed raw s))
  | .zeroCross m => .done (.next (zeroCrossed m s))
  | .tick us => .done (.next (ticked us s))
  | .host c call => hostFetch c call s
  | .stopPoll c => .done (stopPolled c s)
  | .readGi c k => .done (giRead c k s)
  | .readStat c f => .done (statRead c f s)
  | .enterGetter c g => .done (getterEntered c g s)
  | .callbackReturn => .done (callbackReturn s)
  | .construct p => .done (construct p s)

/-- The next action: the schedule's head, or the decoder's step where nothing is scheduled. -/
def fetch (s : State) : Fetched :=
  match s.script with
  | [] => decoderFetch s
  | e :: rest => eventFetch e { s with script := rest }

/-- A state whose next action fetches the encoded form: a bus word waits in `cur` at DISPATCH, a marker is the oldest of ZQ
at ZCDRAIN, a host call is the schedule's next action. -/
def placed (e : Encoded) (s : State) : State :=
  match e with
  | .bw16 w => { s with cur := w, ph := .dispatch, running := true, script := .decoder :: s.script }
  | .zm m => { s with zq := m :: s.zq, ph := .zcdrain, running := true, script := .decoder :: s.script }
  | .host call => { s with script := .host (.host 0) call :: s.script }

end Sys2Proof.Machine
end

