-- ==== Sys2Proof/Machine/Step.lean ====
section
/-! DEFINITION. One atomic action of the whole machine (R8, R77, R180). -/

namespace Sys2Proof.Machine

/-- One step: the next action, which is an instruction to run or an action without one. -/
def step (s : State) : Host.Outcome State Fault Refusal :=
  match fetch s with
  | .run i t => exec i t
  | .done r => r

/-- s with an opcode-table word placed where the next step fetches it. A word that is no form of the table changes
nothing. -/
def State.withFetchWord (s : State) (nbits w : Nat) : State :=
  match tableForm nbits w with
  | none => s
  | some e => placed e s

end Sys2Proof.Machine
end

