-- ==== Sys2Proof/WellFormed.lean ====
section
/-! DEFINITION. Which instructions a block with given parameters can be sent: a target needs a code in the address
table, and an `INVALID` word needs an address that selects no target (R93, R94, R100). -/

namespace Sys2Proof

/-- The table gives the target a code, and the code survives the mask of R95. -/
def Params.hasCode (p : Params) (t : Target) : Bool :=
  match p.code? t with
  | none => false
  | some a => decide (p.lookup (maskAddr p a) = t)

/-- Well-formedness. Bytes, payload bits, callbacks and operations without operands have no ill-formed value: their types
hold exactly the values the spec gives them. -/
def Instr.wf (p : Params) : Instr → Bool
  | .triacs _ => p.hasCode .triacs
  | .sol1 _ => p.hasCode .sol1
  | .sol2 _ => p.hasCode .sol2
  | .sol3 _ => p.hasCode .sol3
  | .sol4 _ => p.hasCode .sol4
  | .lcol _ => p.hasCode .lcol
  | .lrow _ => p.hasCode .lrow
  | .invalid a _ => decide (p.lookup (maskAddr p a) = .invalid)
  | .zc _ => true
  | .start => true
  | .stop => true
  | .setLampNotify _ => true
  | .setSolNotify _ => true
  | .getLights => true
  | .getSolenoids => true
  | .getGi => true
  | .getStats => true
  | .resetOverflow => true

end Sys2Proof
end

