-- ==== Sys2Proof/Safety.lean ====
section
/-! DEFINITION. The terms that claims are stated in: the invariant of rule R52, whose turn it is, and one half-cycle of the
estimator's input. -/

namespace Sys2Proof.Machine

/-- The invariant of a constructed block (R52, R41, R66), with the two facts its items 7 and 5 need to be kept by every
step. -/
structure Inv (s : State) : Prop where
  /-- The block was built from a valid parameter set (R211). -/
  valid : s.params.Valid
  /-- `bright` has one entry per channel (R23). -/
  brightLength : s.bright.length = s.params.nch
  /-- `latched` has one entry per channel (R25). -/
  latchedLength : s.latched.length = s.params.nch
  /-- `acc` has one entry per channel (R26). -/
  accLength : s.acc.length = s.params.nch
  /-- R52 item 1. -/
  brightRange : ∀ k, (s.brightAt k).toNat ≤ s.params.lmax
  /-- R52 item 2. -/
  windowRange : s.zcWin < s.params.w
  /-- R52 item 3. -/
  accRange : ∀ k, s.accAt k ≤ (s.zcWin + (s.latchedAt k).toNat) * s.params.lmax
  /-- R52 item 5: a lamp change is pending only before NOTIFY_LAMP. -/
  lightsPhase : s.lightsChanged = true → s.ph = .notifyLamp
  /-- R52 item 5: a solenoid change is pending only before NOTIFY_SOL. -/
  solPhase : s.solChanged = true → s.ph = .notifyLamp ∨ s.ph = .notifySol
  /-- R52 item 5: never both. -/
  oneChange : ¬(s.lightsChanged = true ∧ s.solChanged = true)
  /-- DQ holds at most `QCAP` words (R61). -/
  wordsFit : s.dq.length ≤ s.params.qcap
  /-- ZQ holds at most `ZQCAP` markers (R61). -/
  markersFit : s.zq.length ≤ s.params.zqcap
  /-- R52 item 6. -/
  depthRange : s.maxDepth ≤ s.params.qcap
  /-- R52 item 6. -/
  overflowDepth : s.overflowFlag = true → s.maxDepth = s.params.qcap
  /-- R52 item 7. -/
  errorsCounted : s.addressErrorCount ≤ s.eventCount
  /-- A popped word is counted before it can be an address error (R184, R186). -/
  errorsPending : s.ph = .dispatch → bump s.params s.addressErrorCount ≤ s.eventCount
  /-- R41: `ph = STOPPED` if and only if `running = 0`. -/
  runningPhase : s.running = false ↔ s.ph = .stopped
  /-- R66: a running block has its sequencers on. -/
  samplerOn : s.running = true → s.samplerActive = true

/-- The decoder acts next: the schedule says so, or nothing is scheduled. -/
def decoderTurn (s : State) : Bool :=
  match s.script with
  | [] => true
  | e :: _ => decide (e = .decoder)

/-- The next action is a construction, which leaves nothing of the old block. -/
def constructsNext (s : State) : Bool :=
  match s.script with
  | .construct _ :: _ => true
  | _ => false

/-- The next action is a host's: an operation, a later action of one, or a callback's return (R244). -/
def hostTurn (s : State) : Bool :=
  match s.script with
  | .host _ _ :: _ => true
  | .stopPoll _ :: _ => true
  | .readGi _ _ :: _ => true
  | .readStat _ _ :: _ => true
  | .enterGetter _ _ :: _ => true
  | .callbackReturn :: _ => true
  | _ => false

/-- The schedule after the next action. -/
def afterHead (s : State) : State := { s with script := s.script.tail }

/-- At DISPATCH a word of the target T is run as the instruction f of its data byte (R185). -/
def RoutedAs (T : Target) (f : Byte → Instr) : Prop :=
  ∀ s : State, decoderTurn s = true → s.ph = .dispatch → targetOf s.params s.cur = T →
    step s = exec (f (dataField s.cur)) (afterHead s)

/-- The next action is the host call of the operation i (R105). -/
def Issues (i : Instr) (s : State) : Prop :=
  ∃ c call rest, s.script = .host c call :: rest ∧ decodeCall call = .ok i

/-- The state an outcome answers, if it answers one. -/
def nextOf (r : Result) : Option State :=
  match r with
  | .next t => some t
  | .fault _ => none
  | .refused _ => none

/-- n steps one after another, ended by the first fault or refusal. -/
def runSteps : Nat → State → Result
  | 0, s => .next s
  | n + 1, s =>
    match step s with
    | .next t => runSteps n t
    | .fault f => .fault f
    | .refused r => .refused r

/-- One action of a block that a prompt host serves: a running callback returns, and otherwise the next action is taken
(R189, R280). -/
def servedStep (s : State) : Result :=
  if inCallback s then step { s with script := .callbackReturn :: s.script } else step s

/-- n served actions one after another, ended by the first fault or refusal. -/
def runServed : Nat → State → Result
  | 0, s => .next s
  | n + 1, s =>
    match servedStep s with
    | .next t => runServed n t
    | .fault f => .fault f
    | .refused r => .refused r

/-- The word of solenoid bank i: `SOL1` to `SOL4` (R140). -/
def solWord (i : Fin 4) (data : Byte) : Instr :=
  match i with
  | 0 => .sol1 data
  | 1 => .sol2 data
  | 2 => .sol3 data
  | 3 => .sol4 data

/-- The addends of one half-cycle that a close makes (R154, R156): nothing for a latched channel, else the fill value. -/
def closeAddend (s : State) (k : Nat) : Nat :=
  if s.latchedAt k then 0
  else match s.params.unfired with
    | .hold => (s.brightAt k).toNat
    | .off => 0
    | .brightest => s.params.lmax

/-- The fields `get_stats` reads, in the record's order (R208). -/
def statFields (p : Params) : List StatField :=
  [.maxQueueDepth, .eventCount, .overflow, .addressErrors] ++
    (if p.diag then [.rows, .cols, .zeroCrossings, .triacEvents] else [])

/-- The record of the current diagnostics (R208). -/
def statsNow (s : State) : Stats :=
  { maxQueueDepth := s.maxDepth
    eventCount := s.eventCount
    overflow := s.overflowFlag
    addressErrors := s.addressErrorCount
    diag := if s.params.diag then some ⟨s.rowsDetected, s.colsDetected, s.zcDetected, s.triacDetected⟩ else none }

/-- The value that a field of the diagnostics has now (R208), the overflow flag as 0 or 1. -/
def statValue (s : State) : StatField → Nat
  | .maxQueueDepth => s.maxDepth
  | .eventCount => s.eventCount
  | .overflow => s.overflowFlag.toNat
  | .addressErrors => s.addressErrorCount
  | .rows => s.rowsDetected
  | .cols => s.colsDetected
  | .zeroCrossings => s.zcDetected
  | .triacEvents => s.triacDetected

/-- The value that a `get_stats` in progress has read for a field, if it has read it. -/
def StatsPart.taken (got : StatsPart) : StatField → Option Nat
  | .maxQueueDepth => got.maxQueueDepth
  | .eventCount => got.eventCount
  | .overflow => got.overflow.map Bool.toNat
  | .addressErrors => got.addressErrors
  | .rows => got.rows
  | .cols => got.cols
  | .zeroCrossings => got.zeroCrossings
  | .triacEvents => got.triacEvents

/-- The value that a returned record has for a field, if it has the field. -/
def Stats.value (v : Stats) : StatField → Option Nat
  | .maxQueueDepth => some v.maxQueueDepth
  | .eventCount => some v.eventCount
  | .overflow => some v.overflow.toNat
  | .addressErrors => some v.addressErrors
  | .rows => v.diag.map DiagStats.rows
  | .cols => v.diag.map DiagStats.cols
  | .zeroCrossings => v.diag.map DiagStats.zeroCrossings
  | .triacEvents => v.diag.map DiagStats.triacEvents

/-- Run a list of instructions one after another, as their meanings say; `none` where one stops. -/
def execAll : List Instr → State → Option State
  | [], s => some s
  | i :: rest, s => (nextOf (exec i s)).bind (execAll rest)

/-- One estimator half-cycle: a `TRIACS` word with the mask `data` dispatched d microseconds after the last marker, then the
next marker dequeued at clock value `close`. -/
def halfCycle (data : Byte) (d close : Nat) (s : State) : Option State :=
  (nextOf (exec (.triacs data) { s with clock := s.zcTime.toNat + d })).bind fun t =>
    nextOf (exec (.zc 0) { t with clock := close })

/-- n half-cycles of one window, all with the same mask and delay; the markers come at the clock values of the list. -/
def halfCycles (data : Byte) (d : Nat) : List Nat → State → Option State
  | [], s => some s
  | close :: rest, s => (halfCycle data d close s).bind (halfCycles data d rest)

end Sys2Proof.Machine
end

