-- ==== Sys2Proof/Certificates/Slice0/Obligations.lean ====
section
/-! DEFINITION. The statements for the provers. Each docstring names the rules of spec/ that the statement formalises; where a
rule marks a point as a decision of the spec's own, the docstring names the decision. -/

open Sys2Proof Sys2Proof.Machine

/-! ### Reset, construction, invariant -/

/-- R50, R261, R262 (decisions D20, D23, D24): every element of the reset table, but `cur`, whose reset value the spec leaves
unspecified. Zero is the spec's own choice, not the source's. That reset is the block built from the reference parameters is
the model's choice (assumption 1), and with them `zcTime` is 0 by D20. -/
def Obligations.ResetLeavesTheTableOfValues : Prop :=
  let s := State.reset
  s.params = Params.reference ∧ (∀ c : Fin 8, s.lamp[c] = 0) ∧ (∀ i : Fin 4, s.sol[i] = 0) ∧
    s.bright = [0, 0, 0, 0, 0] ∧ s.eventCount = 0 ∧ s.addressErrorCount = 0 ∧ s.overflowFlag = false ∧ s.maxDepth = 0 ∧
    s.rowsDetected = 0 ∧ s.colsDetected = 0 ∧ s.zcDetected = 0 ∧ s.triacDetected = 0 ∧ s.pendingCol = none ∧
    s.latched = [false, false, false, false, false] ∧ s.acc = [0, 0, 0, 0, 0] ∧ s.zcTime = 0 ∧ s.zcWin = 0 ∧
    s.lightsChanged = false ∧ s.solChanged = false ∧ s.ph = .stopped ∧ s.enable = false ∧ s.running = false ∧
    s.samplerActive = false ∧ s.lampCb = none ∧ s.solCb = none ∧ s.lampLock = none ∧ s.solLock = none ∧
    s.dq = [] ∧ s.zq = []

/-- R52 holds at reset. -/
def Obligations.ResetMeetsTheInvariant : Prop := Inv State.reset

/-- R52 (with R41, R61, R66): whatever agent acts, a step from a state that meets the invariant answers a state that meets
it. -/
def Obligations.EveryStepKeepsTheInvariant : Prop :=
  ∀ s t : State, Inv s → step s = .next t → Inv t

/-- R211, R233, R260, R50 (decisions D20, D23, D24, D34): construction with a valid parameter set gives the block in its reset state,
every element at the value of the reset table for that set, and that state meets the invariant; with any other it raises
`ConfigurationError`. That construction is an action of the schedule, that the clock and the schedule go on, and that the
calls in progress and what the host has seen end, is the model's choice (assumption 15); so are the values of `cur` and
`caller` inside `State.init` (assumptions 3 and 5). -/
def Obligations.ConstructionChecksTheParameters : Prop :=
  ∀ (p : Params) (s : State) (rest : List Event), s.script = .construct p :: rest →
    (p.Valid → step s = .next (State.init p s.clock rest) ∧ Inv (State.init p s.clock rest) ∧
      ∀ t, step s = .next t →
        t.params = p ∧ (∀ c : Fin 8, t.lamp[c] = 0) ∧ (∀ i : Fin 4, t.sol[i] = 0) ∧ t.bright = List.replicate p.nch 0 ∧
        t.eventCount = 0 ∧ t.addressErrorCount = 0 ∧ t.overflowFlag = false ∧ t.maxDepth = 0 ∧
        t.rowsDetected = 0 ∧ t.colsDetected = 0 ∧ t.zcDetected = 0 ∧ t.triacDetected = 0 ∧ t.pendingCol = none ∧
        t.latched = List.replicate p.nch false ∧ t.acc = List.replicate p.nch 0 ∧ t.zcTime = p.zctimeReset ∧ t.zcWin = 0 ∧
        t.lightsChanged = false ∧ t.solChanged = false ∧ t.ph = .stopped ∧ t.enable = false ∧ t.running = false ∧
        t.samplerActive = false ∧ t.lampCb = none ∧ t.solCb = none ∧ t.lampLock = none ∧ t.solLock = none ∧
        t.dq = [] ∧ t.zq = [] ∧ t.clock = s.clock ∧ t.script = rest ∧ t.calls = [] ∧ t.out = []) ∧
      (¬p.Valid → step s = .fault .configurationError)

/-! ### Decoding -/

/-- R90, R91, R94, R95, R104, R105: decoding the encoded form of a well-formed instruction gives it back, with every operand,
for every valid parameter set. -/
def Obligations.DecodeOfEncodeGivesTheInstruction : Prop :=
  ∀ (p : Params) (i : Instr), p.Valid → i.wf p = true → decode p (encode p i) = .ok i

/-- R94, R103: every 16-bit word decodes to a well-formed instruction, under every valid parameter set. -/
def Obligations.EveryWordDecodesWellFormed : Prop :=
  ∀ (p : Params) (w : BusWord), p.Valid → (decodeWord p w).wf p = true

/-- R93, R104 (decision D3): under the default table each word is the encoding of exactly the instruction it decodes to. -/
def Obligations.EveryWordIsTheCodeOfItsInstruction : Prop :=
  ∀ w : BusWord, encode Params.reference (decodeWord Params.reference w) = .bw16 w

/-- R91, R94, R95: the target of a word is the table's entry at the address field, with the bit `ZC_ADDR_BIT` cleared where the
parameter names one, and the data byte is the low byte. -/
def Obligations.TargetIsTheTableEntryOfTheMaskedAddress : Prop :=
  ∀ (p : Params) (w : BusWord),
    (∀ j : Nat, (addrField w).getLsbD j = (decide (j < 8) && w.getLsbD (8 + j))) ∧
      (∀ j : Nat, (dataField w).getLsbD j = (decide (j < 8) && w.getLsbD j)) ∧
      (p.zcAddrBit = none → targetOf p w = p.lookup (addrField w)) ∧
      (∀ b, p.zcAddrBit = some b → ∃ a : Byte, targetOf p w = p.lookup a ∧
        ∀ j : Nat, a.getLsbD j = ((addrField w).getLsbD j && decide (j ≠ b.val)))

/-- Words of R108 and of 95_test_vectors.md section 2.1, written out from R90 and R93 (decisions D2, D3), one for each target
and three invalid ones; the marker; three operation numbers (R105). -/
def Obligations.WrittenWordsDecodeAsTheTableSays : Prop :=
  decodeTableWord 16 0b0000000100000101 = some (.triacs 0x05) ∧
    decodeTableWord 16 0b0000001000000000 = some (.sol1 0x00) ∧
    decodeTableWord 16 0b0000010000000001 = some (.sol2 0x01) ∧
    decodeTableWord 16 0b0000100010000000 = some (.sol3 0x80) ∧
    decodeTableWord 16 0b0001000011111111 = some (.sol4 0xFF) ∧
    decodeTableWord 16 0b0010000000000100 = some (.lcol 0x04) ∧
    decodeTableWord 16 0b0100000010101010 = some (.lrow 0xAA) ∧
    decodeTableWord 16 0b0000000000110011 = some (.invalid 0x00 0x33) ∧
    decodeTableWord 16 0b0110000000010001 = some (.invalid 0x60 0x11) ∧
    decodeTableWord 16 0b1000000000000100 = some (.invalid 0x80 0x04) ∧
    decodeTableWord 1 1 = some (.zc 1) ∧
    decodeTableWord 4 0 = some .start ∧ decodeTableWord 4 8 = some .resetOverflow ∧ decodeTableWord 4 9 = none

/-- R183, R185, R105: at DISPATCH the decoder's step is the meaning of the instruction that `cur` decodes to; at ZCDRAIN with a
marker in ZQ it is the meaning of the marker, popped; a host call is the meaning of the operation its number names, run for
the context that issues it, when that context can. -/
def Obligations.StepRunsTheDecodedInstruction : Prop :=
  (∀ s : State, decoderTurn s = true → s.ph = .dispatch →
      step s = exec (decodeWord s.params s.cur) (afterHead s)) ∧
    (∀ (s : State) (m : Marker) (rest : List Marker), decoderTurn s = true → s.ph = .zcdrain → s.zq = m :: rest →
      step s = exec (decodeMarker m) { afterHead s with zq := rest }) ∧
    (∀ (s : State) (c : Ctx) (call : HostCall) (i : Instr) (rest : List Event), s.script = .host c call :: rest →
      decodeCall call = .ok i → ready c i s = true → step s = exec i { afterHead s with caller := c })

/-- R105 (decision D29): numbers 9 to 15 name no operation. That a call with one is refused by name, and a callback given to an
operation that takes none too, is the model's choice (assumption 14). -/
def Obligations.CallsThatNameNoOperationAreRefused : Prop :=
  ∀ (s : State) (c : Ctx) (call : HostCall) (rest : List Event), s.script = .host c call :: rest →
    (9 ≤ call.op.toNat → step s = .refused (.badHostCall .noSuchOperation)) ∧
      (call.op.toNat ∈ [0, 1, 4, 5, 6, 7, 8] → call.arg ≠ none → step s = .refused (.badHostCall .strayOperand))

/-! ### The lamp family -/

/-- R121, and R97 (decision D11) for which column each byte selects: a zero byte leaves the pending column; the byte 1 << c selects
column c; any other byte invalidates it. The word is counted in `colsDetected`, nothing else changes, and the decoder goes
on to NOTIFY_LAMP. A word of the target is run so. -/
def Obligations.LcolSelectsThePendingColumn : Prop :=
  RoutedAs .lcol Instr.lcol ∧
  ∀ (d : Byte) (s : State), ∃ t, exec (.lcol d) s = .next t ∧
    t = { s with
      colsDetected := if s.params.diag then bump s.params s.colsDetected else s.colsDetected
      pendingCol := t.pendingCol
      ph := .notifyLamp } ∧
    (d = 0 → t.pendingCol = s.pendingCol) ∧
    (∀ c : Fin 8, d = (1 : Byte) <<< c.val → t.pendingCol = some c) ∧
    (d ≠ 0 → (∀ c : Fin 8, d ≠ (1 : Byte) <<< c.val) → t.pendingCol = none)

/-- R122, with `lampLock` free: a differing byte is stored in the pending column and marks the change; an equal byte stores
nothing; both clear the latch; without a pending column nothing changes but the row count. A word of the target is run so. -/
def Obligations.LrowAppliesTheRowByte : Prop :=
  RoutedAs .lrow Instr.lrow ∧
  ∀ (d : Byte) (s : State),
    (∀ c : Fin 8, s.pendingCol = some c → s.lamp[c] ≠ d → s.lampLock = none →
      exec (.lrow d) s = .next { s with
        rowsDetected := if s.params.diag then bump s.params s.rowsDetected else s.rowsDetected
        lamp := s.lamp.set c d
        lightsChanged := true
        pendingCol := none
        ph := .notifyLamp }) ∧
      (∀ c : Fin 8, s.pendingCol = some c → s.lamp[c] = d →
        exec (.lrow d) s = .next { s with
          rowsDetected := if s.params.diag then bump s.params s.rowsDetected else s.rowsDetected
          pendingCol := none
          ph := .notifyLamp }) ∧
      (s.pendingCol = none →
        exec (.lrow d) s = .next { s with
          rowsDetected := if s.params.diag then bump s.params s.rowsDetected else s.rowsDetected
          ph := .notifyLamp })

/-- R120 to R122: what `LROW` leaves unchanged. The byte stored to is the one `lrowStore` computes; every other byte of the
store reads as before, and beside `lamp` only the latch, the row count, the lamp flag and the phase may change. -/
def Obligations.FrameOfLrow : Prop :=
  ∀ (d : Byte) (s t : State), exec (.lrow d) s = .next t →
    (∀ (g : Group) (i : Nat), (∀ c, lrowStore d s = some c → ¬(g = .lamp ∧ i = c.val)) →
      readByte t g i = readByte s g i) ∧
      t = { s with
        lamp := t.lamp
        pendingCol := t.pendingCol
        rowsDetected := t.rowsDetected
        lightsChanged := t.lightsChanged
        ph := t.ph }

/-- R124 with R20: a step changes a lamp byte exactly when it dispatches an `LROW` whose byte differs from the byte of the
pending column, with the lock free (assumption 8), and a byte that changes becomes the row byte; no agent's action changes
one otherwise. -/
def Obligations.OnlyAnLrowStepChangesALampByte : Prop :=
  ∀ (s t : State) (c : Fin 8), constructsNext s = false → step s = .next t →
    (t.lamp[c] ≠ s.lamp[c] ↔
      decoderTurn s = true ∧ s.ph = .dispatch ∧ s.lampLock = none ∧
        ∃ d, decodeWord s.params s.cur = .lrow d ∧ s.pendingCol = some c ∧ d ≠ s.lamp[c]) ∧
      (t.lamp[c] ≠ s.lamp[c] → decodeWord s.params s.cur = .lrow t.lamp[c])

/-- R24, R123: a step that changes the pending column dispatches an `LCOL` or an `LROW`, or is a `start`. -/
def Obligations.OnlyLampWordsAndStartChangeThePendingColumn : Prop :=
  ∀ s t : State, constructsNext s = false → step s = .next t → t.pendingCol ≠ s.pendingCol →
    (decoderTurn s = true ∧ s.ph = .dispatch ∧
      ∃ d, decodeWord s.params s.cur = .lcol d ∨ decodeWord s.params s.cur = .lrow d) ∨
    (t.pendingCol = none ∧ Issues .start s)

/-! ### The solenoid family -/

/-- R141 to R144 (R140): a differing byte is stored in the word's own bank and marks the change (with `solLock` free); an equal byte
changes nothing; the decoder goes on to NOTIFY_LAMP. A word of each target is run so. -/
def Obligations.SolenoidWordsRouteTheirByte : Prop :=
  RoutedAs .sol1 Instr.sol1 ∧ RoutedAs .sol2 Instr.sol2 ∧ RoutedAs .sol3 Instr.sol3 ∧ RoutedAs .sol4 Instr.sol4 ∧
  ∀ (d : Byte) (s : State),
    ((s.sol[0] ≠ d → s.solLock = none →
        exec (.sol1 d) s = .next { s with sol := s.sol.set 0 d, solChanged := true, ph := .notifyLamp }) ∧
      (s.sol[0] = d → exec (.sol1 d) s = .next { s with ph := .notifyLamp })) ∧
    ((s.sol[1] ≠ d → s.solLock = none →
        exec (.sol2 d) s = .next { s with sol := s.sol.set 1 d, solChanged := true, ph := .notifyLamp }) ∧
      (s.sol[1] = d → exec (.sol2 d) s = .next { s with ph := .notifyLamp })) ∧
    ((s.sol[2] ≠ d → s.solLock = none →
        exec (.sol3 d) s = .next { s with sol := s.sol.set 2 d, solChanged := true, ph := .notifyLamp }) ∧
      (s.sol[2] = d → exec (.sol3 d) s = .next { s with ph := .notifyLamp })) ∧
    ((s.sol[3] ≠ d → s.solLock = none →
        exec (.sol4 d) s = .next { s with sol := s.sol.set 3 d, solChanged := true, ph := .notifyLamp }) ∧
      (s.sol[3] = d → exec (.sol4 d) s = .next { s with ph := .notifyLamp }))

/-- R140: what `SOL1` to `SOL4` leave unchanged: every byte but the bank's own where it differs, and every field but `sol`, the
solenoid flag and the phase. -/
def Obligations.FrameOfSolenoidWords : Prop :=
  ∀ (i : Fin 4) (d : Byte) (s t : State), exec (solWord i d) s = .next t →
    (∀ (g : Group) (j : Nat), ¬(g = .sol ∧ j = i.val ∧ s.sol[i] ≠ d) → readByte t g j = readByte s g j) ∧
      t = { s with sol := t.sol, solChanged := t.solChanged, ph := t.ph }

/-- R22, R140: a step changes a solenoid bank exactly when it dispatches the bank's own word with a differing byte and the lock
free (assumption 8), and a bank that changes becomes the word's byte. -/
def Obligations.OnlyItsOwnWordChangesASolenoidBank : Prop :=
  ∀ (s t : State) (i : Fin 4), constructsNext s = false → step s = .next t →
    (t.sol[i] ≠ s.sol[i] ↔
      decoderTurn s = true ∧ s.ph = .dispatch ∧ s.solLock = none ∧
        ∃ d, decodeWord s.params s.cur = solWord i d ∧ d ≠ s.sol[i]) ∧
      (t.sol[i] ≠ s.sol[i] → decodeWord s.params s.cur = solWord i t.sol[i])

/-- R70, R191, R274 (assumption 8): while a reader holds the group's lock, a word that has a byte to store waits: the action is
not taken, and the decoder is where it was. -/
def Obligations.StoringWordsWaitForAReader : Prop :=
  ∀ (d : Byte) (s : State),
    (∀ c : Fin 8, s.pendingCol = some c → s.lamp[c] ≠ d → s.lampLock ≠ none → exec (.lrow d) s = .next s) ∧
      (∀ i : Fin 4, s.sol[i] ≠ d → s.solLock ≠ none → exec (solWord i d) s = .next s)

/-- R192, first half: once a `SOLn d` word has been taken, a second one finds nothing to store in any state whose bank still
holds the byte. -/
def Obligations.ReplayedSolenoidWordStoresNothing : Prop :=
  ∀ (i : Fin 4) (d : Byte) (s t u : State), s.solLock = none → exec (solWord i d) s = .next t → u.sol[i] = t.sol[i] →
    exec (solWord i d) u = .next { u with ph := .notifyLamp }

/-- R192, second half: once `LCOL c`, `LROW d` have been taken, a second pair finds nothing to store in any state whose column
still holds the byte: it changes only the two optional counts and leaves no column pending. -/
def Obligations.ReplayedLampPairStoresNothing : Prop :=
  ∀ (c : Fin 8) (d : Byte) (s t u : State), s.lampLock = none →
    execAll [.lcol ((1 : Byte) <<< c.val), .lrow d] s = some t → u.lamp[c] = t.lamp[c] →
    execAll [.lcol ((1 : Byte) <<< c.val), .lrow d] u = some { u with
      colsDetected := if u.params.diag then bump u.params u.colsDetected else u.colsDetected
      rowsDetected := if u.params.diag then bump u.params u.rowsDetected else u.rowsDetected
      pendingCol := none
      ph := .notifyLamp }

/-! ### The correlator -/

/-- R151 (decision D17): the step table. Below the first threshold the level is `LMAX`; from threshold i up to the next it is
`LMAX - (i + 1)`; from the last on it is 0; a longer delay never gives a higher level. -/
def Obligations.LevelFollowsTheStepTable : Prop :=
  ∀ p : Params, p.Valid →
    (∀ d : Timestamp, d.toNat < p.stepT.getD 0 0 → level p d = p.lmax) ∧
      (∀ (d : Timestamp) (i : Nat), i + 1 < p.lmax → p.stepT.getD i 0 ≤ d.toNat → d.toNat < p.stepT.getD (i + 1) 0 →
        level p d = p.lmax - (i + 1)) ∧
      (∀ d : Timestamp, p.stepT.getD (p.lmax - 1) 0 ≤ d.toNat → level p d = 0) ∧
      (∀ d₁ d₂ : Timestamp, d₁.toNat ≤ d₂.toNat → level p d₂ ≤ level p d₁)

/-- R152, R98, R162 (decisions D15, D16, D19): `TRIACS` takes the level of the modular delay since the last marker for every
channel of the mask that has not latched in this half-cycle, latches it, and leaves every other channel as it is. A word of
the target is run so. -/
def Obligations.TriacsTakesALevelForEveryFiredChannel : Prop :=
  RoutedAs .triacs Instr.triacs ∧
  ∀ (d : Byte) (s : State), s.acc.length = s.params.nch → s.latched.length = s.params.nch → ∃ t,
    exec (.triacs d) s = .next t ∧
    t = { s with
      acc := t.acc
      latched := t.latched
      triacDetected := if s.params.diag then bump s.params s.triacDetected else s.triacDetected
      ph := .notifyLamp } ∧
    t.acc.length = s.params.nch ∧ t.latched.length = s.params.nch ∧
    ∀ k, k < s.params.nch →
      (d.getLsbD (chBitOf s.params k) = true → s.latchedAt k = false →
        t.accAt k = s.accAt k + level s.params (BitVec.ofNat 32 s.clock - s.zcTime) ∧ t.latchedAt k = true) ∧
      (d.getLsbD (chBitOf s.params k) = false ∨ s.latchedAt k = true →
        t.accAt k = s.accAt k ∧ t.latchedAt k = s.latchedAt k)

/-- R153 to R156 (decisions D8, D18, D19, D37): a marker is stamped with the clock; every channel that did not latch adds its fill
value and every latch flag is cleared; the W-th marker publishes `acc >> LOG2W` and restarts the window, any other is
counted and publishes nothing. -/
def Obligations.MarkerClosesTheHalfCycle : Prop :=
  ∀ (m : Marker) (s : State), s.acc.length = s.params.nch → s.latched.length = s.params.nch → ∃ t,
    exec (.zc m) s = .next t ∧
    t = { s with
      acc := t.acc
      latched := t.latched
      bright := t.bright
      zcTime := BitVec.ofNat 32 s.clock
      zcWin := t.zcWin
      zcDetected := if s.params.diag then bump s.params s.zcDetected else s.zcDetected
      ph := .zcdrain } ∧
    t.acc.length = s.params.nch ∧ t.latched.length = s.params.nch ∧
    (∀ k, k < s.params.nch → t.latchedAt k = false) ∧
    (s.zcWin + 1 ≠ s.params.w → t.zcWin = s.zcWin + 1 ∧ t.bright = s.bright ∧
      ∀ k, k < s.params.nch → t.accAt k = s.accAt k + closeAddend s k) ∧
    (s.zcWin + 1 = s.params.w → t.zcWin = 0 ∧ t.bright.length = s.params.nch ∧
      ∀ k, k < s.params.nch → t.accAt k = 0 ∧
        t.brightAt k = BitVec.ofNat 8 ((s.accAt k + closeAddend s k) / 2 ^ s.params.log2w))

/-- R99, R102 (decisions D7, D15): a marker's payload and the bits of a `TRIACS` byte that carry no channel change nothing. -/
def Obligations.IgnoredBitsChangeNothing : Prop :=
  (∀ (m m' : Marker) (s : State), exec (.zc m) s = exec (.zc m') s) ∧
    (∀ (d d' : Byte) (s : State), s.acc.length = s.params.nch → s.latched.length = s.params.nch →
      (∀ k, k < s.params.nch → d.getLsbD (chBitOf s.params k) = d'.getLsbD (chBitOf s.params k)) →
      exec (.triacs d) s = exec (.triacs d') s)

/-- R153, R155: what the marker leaves unchanged: every lamp and solenoid byte, and every published level unless the marker is
the W-th of its window; and every field but the correlator's and the phase. -/
def Obligations.FrameOfTheMarker : Prop :=
  ∀ (m : Marker) (s t : State), exec (.zc m) s = .next t →
    (∀ (g : Group) (i : Nat), ¬(g = .gi ∧ s.zcWin + 1 = s.params.w) → readByte t g i = readByte s g i) ∧
      t = { s with
        acc := t.acc
        latched := t.latched
        bright := t.bright
        zcTime := t.zcTime
        zcWin := t.zcWin
        zcDetected := t.zcDetected
        ph := t.ph }

/-- R121, R152, R186: what the words that store nothing leave unchanged: every byte of the store reads as before, and only the
fields each rule names may change. -/
def Obligations.FrameOfWordsThatStoreNothing : Prop :=
  ∀ (d a : Byte) (s t : State),
    (exec (.lcol d) s = .next t → (∀ g i, readByte t g i = readByte s g i) ∧
      t = { s with pendingCol := t.pendingCol, colsDetected := t.colsDetected, ph := t.ph }) ∧
    (exec (.triacs d) s = .next t → (∀ g i, readByte t g i = readByte s g i) ∧
      t = { s with acc := t.acc, latched := t.latched, triacDetected := t.triacDetected, ph := t.ph }) ∧
    (exec (.invalid a d) s = .next t → (∀ g i, readByte t g i = readByte s g i) ∧
      t = { s with addressErrorCount := t.addressErrorCount, ph := t.ph })

/-- R23, R155: a step changes the published levels only when it is the decoder's marker step of the W-th marker of a window. -/
def Obligations.LevelsArePublishedOnlyAtARollover : Prop :=
  ∀ s t : State, constructsNext s = false → step s = .next t → t.bright ≠ s.bright →
    decoderTurn s = true ∧ s.ph = .zcdrain ∧ s.zq ≠ [] ∧ s.zcWin + 1 = s.params.w

/-- R158, with R152 to R155 (decisions D16 to D19): in a window that starts at a rollover, W half-cycles that each fire channel k
after the same delay d publish exactly the table's level of d, whenever the markers come. -/
def Obligations.AWindowOfEqualDelaysPublishesTheirLevel : Prop :=
  ∀ (s : State) (data : Byte) (d k : Nat) (closes : List Nat), Inv s → s.zcWin = 0 → k < s.params.nch →
    s.accAt k = 0 → s.latchedAt k = false → data.getLsbD (chBitOf s.params k) = true → d < 2 ^ 32 →
    closes.length = s.params.w →
    ∃ t, halfCycles data d closes s = some t ∧ t.zcWin = 0 ∧
      (t.brightAt k).toNat = level s.params (BitVec.ofNat 32 d) ∧ t.accAt k = 0 ∧ t.latchedAt k = false

/-! ### The decoder loop -/

/-- R186, R232: an invalid word adds one address error, changes nothing else, and the decoder goes on to NOTIFY_LAMP. A word
whose target is `INVALID` is run so. -/
def Obligations.InvalidWordCountsAnAddressError : Prop :=
  (∀ s : State, decoderTurn s = true → s.ph = .dispatch → targetOf s.params s.cur = .invalid →
    step s = exec (.invalid (addrField s.cur) (dataField s.cur)) (afterHead s)) ∧
  ∀ (a d : Byte) (s : State),
    exec (.invalid a d) s = .next { s with
      addressErrorCount := bump s.params s.addressErrorCount
      ph := .notifyLamp } ∧
    (s.params.cntw = none → bump s.params s.addressErrorCount = s.addressErrorCount + 1)

/-- R31, D21: a counter adds one, without bound where `CNTW` is unbounded; of finite width it stays at `2^CNTW - 1`; it never
decreases. -/
def Obligations.CountersAddOneOrSaturate : Prop :=
  ∀ (p : Params) (n : Nat),
    (p.cntw = none → bump p n = n + 1) ∧
      (∀ b, p.cntw = some b → (n < 2 ^ b - 1 → bump p n = n + 1) ∧ (2 ^ b - 1 ≤ n → bump p n = n)) ∧
      n ≤ bump p n

/-- R182: CHECK stops the loop when `enable` is 0 and begins an iteration otherwise; in STOPPED the decoder takes no step, and
no action but a `start` leaves STOPPED. -/
def Obligations.CheckStopsTheLoopOrBeginsAnIteration : Prop :=
  (∀ s : State, decoderTurn s = true → s.ph = .check →
    (s.enable = false → step s = .next { afterHead s with running := false, ph := .stopped }) ∧
      (s.enable = true → step s = .next { afterHead s with ph := .zcdrain })) ∧
    (∀ s : State, decoderTurn s = true → s.ph = .stopped → step s = .next (afterHead s)) ∧
    (∀ s t : State, constructsNext s = false → step s = .next t → s.ph = .stopped → t.ph ≠ .stopped → Issues .start s)

/-- R183 (decision D8): with ZQ empty the decoder goes on to POLL; with a marker in it, the oldest is popped and the decoder
looks again. -/
def Obligations.EveryMarkerIsDrainedBeforeThePoll : Prop :=
  ∀ s : State, decoderTurn s = true → s.ph = .zcdrain →
    (s.zq = [] → step s = .next { afterHead s with ph := .poll }) ∧
      (∀ m rest, s.zq = m :: rest → ∃ t, step s = .next t ∧ t.zq = rest ∧ t.ph = .zcdrain ∧ t.dq = s.dq ∧
        t.eventCount = s.eventCount)

/-- R184, R231: POLL of an empty DQ starts the next iteration; otherwise the depth before the pop is recorded, the flag is raised
at depth `QCAP`, exactly one word is popped into `cur` and counted, and the word is dispatched next. -/
def Obligations.PollRecordsTheDepthAndPopsOneWord : Prop :=
  ∀ s : State, decoderTurn s = true → s.ph = .poll →
    (s.dq = [] → step s = .next { afterHead s with ph := .check }) ∧
      (∀ w rest, s.dq = w :: rest →
        step s = .next { afterHead s with
          maxDepth := max s.maxDepth (rest.length + 1)
          overflowFlag := if rest.length + 1 = s.params.qcap then true else s.overflowFlag
          cur := w
          dq := rest
          eventCount := bump s.params s.eventCount
          ph := .dispatch } ∧
        (s.params.cntw = none → bump s.params s.eventCount = s.eventCount + 1))

/-- R187 (decisions D26, D27): a pending lamp change is counted and cleared; a set slot is called and the decoder waits in the
callback; otherwise it goes on to NOTIFY_SOL. -/
def Obligations.NotifyLampCountsAndCallsTheLampSlot : Prop :=
  ∀ s : State, decoderTurn s = true → s.ph = .notifyLamp →
    (s.lightsChanged = false → step s = .next { afterHead s with ph := .notifySol }) ∧
      (s.lightsChanged = true → s.lampCb = none →
        step s = .next { afterHead s with
          eventCount := bump s.params s.eventCount, lightsChanged := false, ph := .notifySol }) ∧
      (∀ cb, s.lightsChanged = true → s.lampCb = some cb →
        step s = .next { afterHead s with
          eventCount := bump s.params s.eventCount, lightsChanged := false, out := .lampCall cb :: s.out, ph := .cbLamp })

/-- R188 (decisions D26, D27): the same for a pending solenoid change; afterwards the next iteration begins. -/
def Obligations.NotifySolCountsAndCallsTheSolenoidSlot : Prop :=
  ∀ s : State, decoderTurn s = true → s.ph = .notifySol →
    (s.solChanged = false → step s = .next { afterHead s with ph := .check }) ∧
      (s.solChanged = true → s.solCb = none →
        step s = .next { afterHead s with
          eventCount := bump s.params s.eventCount, solChanged := false, ph := .check }) ∧
      (∀ cb, s.solChanged = true → s.solCb = some cb →
        step s = .next { afterHead s with
          eventCount := bump s.params s.eventCount, solChanged := false, out := .solCall cb :: s.out, ph := .cbSol })

/-- R189, R241 (decision D26): while a callback runs, or the block is stopped, the decoder takes no step; the return, by a callback
that is inside no getter, moves `CB_LAMP` to NOTIFY_SOL and `CB_SOL` to CHECK and restores nothing. -/
def Obligations.TheDecoderWaitsForACallbackToReturn : Prop :=
  (∀ s : State, decoderTurn s = true → s.ph = .cbLamp ∨ s.ph = .cbSol ∨ s.ph = .stopped → step s = .next (afterHead s)) ∧
    (∀ (s : State) (rest : List Event), s.script = .callbackReturn :: rest → callOf .callback s = none →
      s.lampLock ≠ some .callback → s.solLock ≠ some .callback →
      (s.ph = .cbLamp → step s = .next { afterHead s with ph := .notifySol }) ∧
        (s.ph = .cbSol → step s = .next { afterHead s with ph := .check }))

/-- R190: the event count changes only by one increment, and exactly in the steps that pop a word or find a change pending. -/
def Obligations.EventCountLawOfOneStep : Prop :=
  ∀ s t : State, constructsNext s = false → step s = .next t →
    t.eventCount =
      if decoderTurn s = true ∧ ((s.ph = .poll ∧ s.dq ≠ []) ∨ (s.ph = .notifyLamp ∧ s.lightsChanged = true) ∨
          (s.ph = .notifySol ∧ s.solChanged = true))
      then bump s.params s.eventCount else s.eventCount

/-- R32, with decision D21 (assumption 17) for a finite width: the address-error count grows by one, up to the top of a finite width,
in the steps that dispatch a word whose target is `INVALID`, and changes in no other; it is 0 at reset. -/
def Obligations.AddressErrorCountLawOfOneStep : Prop :=
  State.reset.addressErrorCount = 0 ∧
  ∀ s t : State, constructsNext s = false → step s = .next t →
    (¬(decoderTurn s = true ∧ s.ph = .dispatch ∧ targetOf s.params s.cur = .invalid) →
      t.addressErrorCount = s.addressErrorCount) ∧
    (decoderTurn s = true → s.ph = .dispatch → targetOf s.params s.cur = .invalid →
      (s.params.cntw = none → t.addressErrorCount = s.addressErrorCount + 1) ∧
      (∀ b, s.params.cntw = some b →
        (s.addressErrorCount < 2 ^ b - 1 → t.addressErrorCount = s.addressErrorCount + 1) ∧
        (2 ^ b - 1 ≤ s.addressErrorCount → t.addressErrorCount = s.addressErrorCount)))

/-- R34: the depth statistic becomes the maximum of itself and the depth before the pop in a POLL of a non-empty DQ, and changes in
no other step; it stays within 0 to `QCAP` and is 0 at reset. -/
def Obligations.MaxDepthLawOfOneStep : Prop :=
  State.reset.maxDepth = 0 ∧
  ∀ s t : State, constructsNext s = false → step s = .next t →
    (t.maxDepth =
      if decoderTurn s = true ∧ s.ph = .poll ∧ s.dq ≠ [] then max s.maxDepth s.dq.length else s.maxDepth) ∧
      (Inv s → t.maxDepth ≤ s.params.qcap)

/-- R36 to R39, R42, R70 (decisions D10, D24, D26): who changes the control state, and when: `enable` and `running` are set by
`start`; `enable` is cleared by `stop`, `running` by CHECK; the producers are switched on by `start`, and off by a `stop`
that sees the loop stopped; a slot is written by its own operation. A lock goes from free to a context only when that
context enters its getter, and from a context to free only when that context's own getter is issued: that a reader can
hold a lock across steps, and the action by which it does, are the model's choice (assumption 9). -/
def Obligations.OnlyItsWritersChangeTheControlState : Prop :=
  ∀ s t : State, constructsNext s = false → step s = .next t →
    (t.enable ≠ s.enable → (t.enable = true ∧ Issues .start s) ∨ (t.enable = false ∧ Issues .stop s)) ∧
      (t.running ≠ s.running → (t.running = true ∧ Issues .start s) ∨
        (t.running = false ∧ decoderTurn s = true ∧ s.ph = .check ∧ s.enable = false)) ∧
      (t.samplerActive ≠ s.samplerActive → (t.samplerActive = true ∧ Issues .start s) ∨
        (t.samplerActive = false ∧ s.running = false ∧
          (Issues .stop s ∨ ∃ c rest, s.script = .stopPoll c :: rest ∧ callOf c s = some .stopping))) ∧
      (t.lampCb ≠ s.lampCb → ∃ cb, Issues (.setLampNotify cb) s ∧ t.lampCb = cb) ∧
      (t.solCb ≠ s.solCb → ∃ cb, Issues (.setSolNotify cb) s ∧ t.solCb = cb) ∧
      (t.lampLock ≠ s.lampLock → ∃ c rest,
        (s.lampLock = none ∧ t.lampLock = some c ∧ s.script = .enterGetter c .lamp :: rest) ∨
        (s.lampLock = some c ∧ t.lampLock = none ∧
          ∃ call, s.script = .host c call :: rest ∧ decodeCall call = .ok .getLights)) ∧
      (t.solLock ≠ s.solLock → ∃ c rest,
        (s.solLock = none ∧ t.solLock = some c ∧ s.script = .enterGetter c .sol :: rest) ∨
        (s.solLock = some c ∧ t.solLock = none ∧
          ∃ call, s.script = .host c call :: rest ∧ decodeCall call = .ok .getSolenoids))

/-- R237, R238 (decision D27), R13: a callback is called only by the NOTIFY step that finds its change pending and its slot set, one
call in one step. -/
def Obligations.CallbacksAreCalledOnlyForAPendingChange : Prop :=
  ∀ (s t : State) (cb : Callback), constructsNext s = false → step s = .next t →
    (t.out = .lampCall cb :: s.out ↔
      decoderTurn s = true ∧ s.ph = .notifyLamp ∧ s.lightsChanged = true ∧ s.lampCb = some cb) ∧
      (t.out = .solCall cb :: s.out ↔
        decoderTurn s = true ∧ s.ph = .notifySol ∧ s.solChanged = true ∧ s.solCb = some cb) ∧
      (t.out = s.out ∨ ∃ o, t.out = o :: s.out)

/-- R33: the overflow flag is set exactly by a POLL that sees depth `QCAP`, and cleared only by `reset_overflow`; it is clear at
reset. -/
def Obligations.OverflowFlagIsSticky : Prop :=
  State.reset.overflowFlag = false ∧
  ∀ s t : State, constructsNext s = false → step s = .next t →
    (decoderTurn s = true → s.ph = .poll → s.dq ≠ [] → s.dq.length = s.params.qcap → t.overflowFlag = true) ∧
      (s.overflowFlag = false → t.overflowFlag = true →
        decoderTurn s = true ∧ s.ph = .poll ∧ s.dq.length = s.params.qcap) ∧
      (s.overflowFlag = true → t.overflowFlag = false →
        Issues .resetOverflow s)

/-- R191, R182: the loop never stops itself: a step of a running decoder reaches STOPPED only from CHECK with `enable` 0. -/
def Obligations.OnlyCheckWithEnableClearStopsTheLoop : Prop :=
  ∀ s t : State, constructsNext s = false → step s = .next t → s.ph ≠ .stopped → t.ph = .stopped →
    decoderTurn s = true ∧ s.ph = .check ∧ s.enable = false

/-- R278, with R280 (decision D8) and the model's choice that the decoder acts when nothing is scheduled (assumption 2): once
`enable` is 0, with every callback that is called returning and no reader in the way, the loop has stopped after at most
the remaining markers, one iteration and the returns of its two callbacks, and at most one more word has been popped. With
no slot set and no callback running there is nothing to return, and it stops by itself two actions sooner. -/
def Obligations.StopIsReachedWithinOneIteration : Prop :=
  ∀ s : State, Inv s → s.script = [] → s.enable = false → s.lampLock = none → s.solLock = none →
    callOf .callback s = none →
    ∃ n t, n ≤ s.zq.length + 8 ∧ runServed n s = .next t ∧ t.running = false ∧ t.ph = .stopped ∧
      (t.dq = s.dq ∨ t.dq = s.dq.tail) ∧
      (s.lampCb = none → s.solCb = none → inCallback s = false → n ≤ s.zq.length + 6 ∧ runSteps n s = .next t)

/-! ### Host operations -/

/-- R200 (decision D24): from a host context, on a stopped block with its sequencers off and no `stop` in progress, `start` empties
the queues, re-initialises the private registers, switches everything on and enters the loop at CHECK; the store, the
diagnostics and the slots are kept. -/
def Obligations.StartBringsTheBlockUp : Prop :=
  ∀ s : State, s.caller ≠ .callback → stopInProgress s = false → s.running = false → s.samplerActive = false →
    exec .start s = .next { s with
      dq := []
      zq := []
      pendingCol := none
      latched := List.replicate s.params.nch false
      acc := List.replicate s.params.nch 0
      zcTime := s.params.zctimeReset
      zcWin := 0
      lightsChanged := false
      solChanged := false
      samplerActive := true
      enable := true
      running := true
      ph := .check }

/-- R201 (decision D25): `stop` clears `enable`; on a stopped block it is then over; on a running block its context waits, and goes
on waiting while the block runs; when the loop has exited it switches the producers off and returns. That R201's actions 2
and 3 are one look at `running`, and that `stop` of a stopped block is one action, is the model's reading (assumption
11). -/
def Obligations.StopWaitsForTheLoopToExit : Prop :=
  (∀ s : State, s.caller ≠ .callback → stopInProgress s = false →
    (s.running = false → exec .stop s = .next { s with enable := false, samplerActive := false }) ∧
      (s.running = true → ∃ t, exec .stop s = .next t ∧ t = { s with enable := false, calls := t.calls } ∧
        callOf s.caller t = some .stopping ∧ ∀ c, c ≠ s.caller → callOf c t = callOf c s)) ∧
    (∀ (s : State) (c : Ctx) (rest : List Event), s.script = .stopPoll c :: rest → callOf c s = some .stopping →
      (s.running = true → step s = .next (afterHead s)) ∧
        (s.running = false → ∃ t, step s = .next t ∧
          t = { afterHead s with samplerActive := false, calls := t.calls } ∧ callOf c t = none ∧
            ∀ d, d ≠ c → callOf d t = callOf d s))

/-- R203, R204 (decision D26): the slot is replaced, by a callback or by none, and nothing else changes. -/
def Obligations.SetNotifyReplacesTheSlot : Prop :=
  ∀ (cb : Option Callback) (s : State), s.caller ≠ .callback →
    exec (.setLampNotify cb) s = .next { s with lampCb := cb } ∧
      exec (.setSolNotify cb) s = .next { s with solCb := cb }

/-- R205, R206, R71, R73 (decisions D12, D13): each snapshot getter returns to its caller the packed group, byte i of the value
being register i, and changes nothing but the output. With the lock held by another context it waits; waiting as a
step without effect is the model's choice (assumption 8). A context may enter its getter before and take the free lock,
and the getter then gives it back; the locks as state, and such an action, are the model's choice (assumption 9). -/
def Obligations.SnapshotGettersReturnThePackedBytes : Prop :=
  ∀ s : State,
    (s.lampLock = none ∨ s.lampLock = some s.caller → ∃ v : BitVec 64,
      exec .getLights s = .next { s with out := .lights s.caller v :: s.out, lampLock := none } ∧
        ∀ i : Fin 8, v.extractLsb' (8 * i.val) 8 = s.lamp[i]) ∧
      (s.solLock = none ∨ s.solLock = some s.caller → ∃ v : BitVec 32,
        exec .getSolenoids s = .next { s with out := .solenoids s.caller v :: s.out, solLock := none } ∧
          ∀ i : Fin 4, v.extractLsb' (8 * i.val) 8 = s.sol[i]) ∧
      (∀ c, s.lampLock = some c → c ≠ s.caller → exec .getLights s = .next s) ∧
      (∀ c, s.solLock = some c → c ≠ s.caller → exec .getSolenoids s = .next s) ∧
      (∀ c rest, s.script = .enterGetter c .lamp :: rest → ready c .start s = true →
        (s.lampLock = none → step s = .next { afterHead s with lampLock := some c }) ∧
          (s.lampLock ≠ none → step s = .next (afterHead s))) ∧
      (∀ c rest, s.script = .enterGetter c .sol :: rest → ready c .start s = true →
        (s.solLock = none → step s = .next { afterHead s with solLock := some c }) ∧
          (s.solLock ≠ none → step s = .next (afterHead s)))

/-- R207, R208, R210, R72 (decision D33): `get_gi` and `get_stats` are sequences of single reads. That the first action opens the
call for the caller, with nothing read yet, and changes nothing else, is the model's reading (assumption 10). -/
def Obligations.FieldwiseGettersBeginTheirReads : Prop :=
  ∀ s : State,
    (∃ t, exec .getGi s = .next t ∧ t = { s with calls := t.calls } ∧
      callOf s.caller t = some (.gi (List.replicate s.params.nch none)) ∧
      ∀ c, c ≠ s.caller → callOf c t = callOf c s) ∧
    (∃ t, exec .getStats s = .next t ∧ t = { s with calls := t.calls } ∧
      callOf s.caller t = some (.stats {}) ∧ ∀ c, c ≠ s.caller → callOf c t = callOf c s)

/-- R207, R72 (decisions D14, D33): a `get_gi` whose channels are read one after another in any order, with no other action between,
returns the published levels in channel order. That the call returns with its last read is the model's reading (assumption
10). -/
def Obligations.GetGiReturnsTheLevelsInAnyReadOrder : Prop :=
  ∀ (s : State) (c : Ctx) (order : List Nat) (rest : List Event), 1 ≤ s.params.nch → s.bright.length = s.params.nch →
    callOf c s = some (.gi (List.replicate s.params.nch none)) → order.Perm (List.range s.params.nch) →
    s.script = order.map (Event.readGi c) ++ rest →
    ∃ t, runSteps s.params.nch s = .next t ∧ callOf c t = none ∧
      t = { s with script := rest, out := .gi c s.bright :: s.out, calls := t.calls } ∧ ∀ d, d ≠ c → callOf d t = callOf d s

/-- R208, R72 (decisions D22, D33): a `get_stats` whose fields are read one after another in any order, with no other action between,
returns the diagnostics record, with its optional half exactly when `DIAG` is present. That the call returns with its last
read, and reads only the fields that exist, is the model's reading (assumption 10). -/
def Obligations.GetStatsReturnsTheRecordInAnyReadOrder : Prop :=
  ∀ (s : State) (c : Ctx) (order : List StatField) (rest : List Event), callOf c s = some (.stats {}) →
    order.Perm (statFields s.params) → s.script = order.map (Event.readStat c) ++ rest →
    ∃ t, runSteps order.length s = .next t ∧ callOf c t = none ∧
      t = { s with script := rest, out := .stats c (statsNow s) :: s.out, calls := t.calls } ∧ ∀ d, d ≠ c → callOf d t = callOf d s

/-- R202: `reset_overflow` clears the flag and nothing else. -/
def Obligations.ResetOverflowClearsTheFlag : Prop :=
  ∀ s : State, s.caller ≠ .callback → exec .resetOverflow s = .next { s with overflowFlag := false }

/-- R200 to R208, R214: what the host operations leave unchanged: no byte of the store, no counter and no slot but its own, and for
each operation every field but those its rule names. -/
def Obligations.FrameOfHostOperations : Prop :=
  ∀ (cb : Option Callback) (s t : State),
    (exec .start s = .next t → (∀ g i, readByte t g i = readByte s g i) ∧
      t = { s with
        dq := t.dq, zq := t.zq, pendingCol := t.pendingCol, latched := t.latched, acc := t.acc, zcTime := t.zcTime,
        zcWin := t.zcWin, lightsChanged := t.lightsChanged, solChanged := t.solChanged, samplerActive := t.samplerActive,
        enable := t.enable, running := t.running, ph := t.ph }) ∧
    (exec .stop s = .next t → (∀ g i, readByte t g i = readByte s g i) ∧
      t = { s with enable := t.enable, samplerActive := t.samplerActive, calls := t.calls }) ∧
    (exec (.setLampNotify cb) s = .next t → (∀ g i, readByte t g i = readByte s g i) ∧ t = { s with lampCb := t.lampCb }) ∧
    (exec (.setSolNotify cb) s = .next t → (∀ g i, readByte t g i = readByte s g i) ∧ t = { s with solCb := t.solCb }) ∧
    (exec .getLights s = .next t → (∀ g i, readByte t g i = readByte s g i) ∧
      t = { s with out := t.out, lampLock := t.lampLock }) ∧
    (exec .getSolenoids s = .next t → (∀ g i, readByte t g i = readByte s g i) ∧
      t = { s with out := t.out, solLock := t.solLock }) ∧
    (exec .getGi s = .next t → (∀ g i, readByte t g i = readByte s g i) ∧ t = { s with calls := t.calls }) ∧
    (exec .getStats s = .next t → (∀ g i, readByte t g i = readByte s g i) ∧ t = { s with calls := t.calls }) ∧
    (exec .resetOverflow s = .next t → (∀ g i, readByte t g i = readByte s g i) ∧
      t = { s with overflowFlag := t.overflowFlag })

/-- R209, R212, R267 (decision D35; U6 and U7 of 93_implementation_defined.md): a mutating operation from a callback is refused, and
so is a `start` of a block that is not at rest and a `start` or `stop` that overlaps a `stop`. -/
def Obligations.ForbiddenCallsAreRefused : Prop :=
  (∀ (i : Instr) (cb : Option Callback) (s : State),
    i ∈ [Instr.start, .stop, .setLampNotify cb, .setSolNotify cb, .resetOverflow] → s.caller = .callback →
      exec i s = .refused .mutatingFromCallback) ∧
    (∀ s : State, s.caller ≠ .callback → stopInProgress s = true →
      exec .start s = .refused .startStopOverlap ∧ exec .stop s = .refused .startStopOverlap) ∧
    (∀ s : State, s.caller ≠ .callback → stopInProgress s = false → s.running = true ∨ s.samplerActive = true →
      exec .start s = .refused .startWhileActive)

/-- R214, R244, R246: a step that is a host's action writes no lamp, solenoid or brightness byte and none of the diagnostics' numbers
(`eventCount`, `addressErrorCount`, `maxDepth`, the four optional counters), changes no parameter, and, unless it is a
`start`, leaves every private register and both queues alone (a callback's return moves `ph`). -/
def Obligations.HostActionsWriteNoBusDerivedState : Prop :=
  ∀ s t : State, hostTurn s = true → step s = .next t →
    t.lamp = s.lamp ∧ t.sol = s.sol ∧ t.bright = s.bright ∧ t.eventCount = s.eventCount ∧
      t.addressErrorCount = s.addressErrorCount ∧ t.maxDepth = s.maxDepth ∧
      t.rowsDetected = s.rowsDetected ∧ t.colsDetected = s.colsDetected ∧ t.zcDetected = s.zcDetected ∧
      t.triacDetected = s.triacDetected ∧ t.params = s.params ∧
      (Issues .start s ∨
        (t.pendingCol = s.pendingCol ∧ t.latched = s.latched ∧ t.acc = s.acc ∧ t.zcTime = s.zcTime ∧ t.zcWin = s.zcWin ∧
          t.lightsChanged = s.lightsChanged ∧ t.solChanged = s.solChanged ∧ t.cur = s.cur ∧ t.dq = s.dq ∧ t.zq = s.zq))

/-! ### The producers, the clock, the parameters -/

/-- R63, R64, R65, R66, R92 (decisions D5, D6): with the sequencers on, a strobe pushes the line levels inverted once and a zero
crossing pushes a marker; a full queue loses the new entry (of DQ, the oldest instead under the alternative of U4); with
the sequencers off nothing is seen. -/
def Obligations.ProducersPushOnlyWhileActive : Prop :=
  ∀ (s : State) (rest : List Event),
    (∀ raw, s.script = .strobe raw :: rest →
      (s.samplerActive = false → step s = .next (afterHead s)) ∧
      (s.samplerActive = true → s.dq.length < s.params.qcap → step s = .next { afterHead s with dq := s.dq ++ [~~~raw] }) ∧
      (s.samplerActive = true → s.params.qcap ≤ s.dq.length → s.params.fullPush = .newestDropped →
        step s = .next (afterHead s)) ∧
      (s.samplerActive = true → s.params.qcap ≤ s.dq.length → s.params.fullPush = .oldestOverwritten →
        step s = .next { afterHead s with dq := s.dq.tail ++ [~~~raw] })) ∧
    (∀ m, s.script = .zeroCross m :: rest →
      (s.samplerActive = false → step s = .next (afterHead s)) ∧
      (s.samplerActive = true → s.zq.length < s.params.zqcap → step s = .next { afterHead s with zq := s.zq ++ [m] }) ∧
      (s.samplerActive = true → s.params.zqcap ≤ s.zq.length → step s = .next (afterHead s)))

/-- R245, R275, R45: no step turns the clock back, and no step but a construction changes a parameter. -/
def Obligations.TimeAndParametersAreNotRewritten : Prop :=
  ∀ s t : State, step s = .next t → s.clock ≤ t.clock ∧ (constructsNext s = false → t.params = s.params)

/-! ### Single reads between other actions -/

/-- R72, R207, R208 (decision D33): one single read, in any state, so whatever was done between the reads: it takes `bright[k]`, or
the field, as it is at this step, and keeps what the call has read before. While something else is still to be read the
call goes on; with the last read it returns the values it took. That it returns then, and that only fields that exist
with `DIAG` are read, is the model's reading (assumption 10). -/
def Obligations.OneReadTakesTheValueOfItsMoment : Prop :=
  (∀ (s : State) (c : Ctx) (k : Nat) (rest : List Event) (got : List (Option Byte)), s.script = .readGi c k :: rest →
    callOf c s = some (.gi got) → got[k]? = some none → ∃ t, step s = .next t ∧
      t = { afterHead s with calls := t.calls, out := t.out } ∧ (∀ d, d ≠ c → callOf d t = callOf d s) ∧
      ((∃ j, j ≠ k ∧ got[j]? = some none) →
        t.out = s.out ∧ callOf c t = some (.gi (got.set k (some (s.brightAt k))))) ∧
      ((∀ j, j ≠ k → got[j]? ≠ some none) → callOf c t = none ∧ ∃ levels : List Byte,
        t.out = .gi c levels :: s.out ∧ levels.map some = got.set k (some (s.brightAt k)))) ∧
  (∀ (s : State) (c : Ctx) (f : StatField) (rest : List Event) (got : StatsPart), s.script = .readStat c f :: rest →
    callOf c s = some (.stats got) → f ∈ statFields s.params → got.taken f = none → ∃ t, step s = .next t ∧
      t = { afterHead s with calls := t.calls, out := t.out } ∧ (∀ d, d ≠ c → callOf d t = callOf d s) ∧
      ((∃ g ∈ statFields s.params, g ≠ f ∧ got.taken g = none) → t.out = s.out ∧ ∃ got',
        callOf c t = some (.stats got') ∧ got'.taken f = some (statValue s f) ∧
          ∀ g, g ≠ f → got'.taken g = got.taken g) ∧
      ((∀ g ∈ statFields s.params, g ≠ f → got.taken g ≠ none) → callOf c t = none ∧ ∃ v : Stats,
        t.out = .stats c v :: s.out ∧ v.value f = some (statValue s f) ∧
          (∀ g ∈ statFields s.params, g ≠ f → v.value g = got.taken g) ∧ v.diag.isSome = s.params.diag))
end

