-- ==== Sys2Proof/Laws/Decode.lean ====
section
/-! SUPPORT. Fields and codes: a word's fields are the ones it was made from, a target's code selects the target, and a
valid table's codes survive the mask (R90 to R95). -/

namespace Sys2Proof

@[simp] theorem addrField_busWord (a d : Byte) : addrField (busWord a d) = a := by
  apply BitVec.eq_of_getLsbD_eq
  intro i hi
  have h8 : ¬(8 + i < 8) := by omega
  have h9 : 8 + i - 8 = i := by omega
  simp only [addrField, busWord, BitVec.getLsbD_extractLsb', BitVec.getLsbD_append, hi, decide_true, Bool.true_and]
  rw [if_neg h8, h9]

@[simp] theorem dataField_busWord (a d : Byte) : dataField (busWord a d) = d := by
  apply BitVec.eq_of_getLsbD_eq
  intro i hi
  have h8 : 0 + i < 8 := by omega
  simp only [dataField, busWord, BitVec.getLsbD_extractLsb', BitVec.getLsbD_append, hi, decide_true, Bool.true_and]
  rw [if_pos h8, Nat.zero_add]

/-- A word is made of its two fields (R90). -/
theorem busWord_fields (w : BusWord) : busWord (addrField w) (dataField w) = w := by
  apply BitVec.eq_of_getLsbD_eq
  intro i hi
  simp only [busWord, addrField, dataField, BitVec.getLsbD_append, BitVec.getLsbD_extractLsb']
  by_cases h : i < 8
  · rw [if_pos h]; simp [h]
  · have h1 : i - 8 < 8 := by omega
    have h2 : 8 + (i - 8) = i := by omega
    rw [if_neg h, h2]; simp [h1]

/-- The code found for a target selects it. -/
theorem code?_selects {p : Params} {t : Target} {a : Byte} (h : p.code? t = some a) : p.lookup a = t := by
  simpa using List.find?_some h

/-- A value that selects a target is listed, so the target has a code. -/
theorem code?_isSome {p : Params} {a : Byte} (h : p.lookup a ≠ .invalid) : (p.code? (p.lookup a)).isSome := by
  have listed : ∀ l : List (Byte × Target), lutLookup l a ≠ .invalid → a ∈ l.map Prod.fst := by
    intro l
    induction l with
    | nil => intro h; exact absurd rfl h
    | cons e rest ih =>
      intro h
      by_cases he : e.1 = a
      · simp [he]
      · have : lutLookup rest a ≠ .invalid := by simpa [lutLookup, he] using h
        simpa using Or.inr (by simpa using ih this)
  rw [Params.code?, List.find?_isSome]
  exact ⟨a, listed _ h, by simp⟩

end Sys2Proof
end

