-- ==== Sys2Proof/Laws/State.lean ====
section
/-! SUPPORT. One lemma per field per shared update of State: what the update leaves, or what it writes. -/

namespace Sys2Proof.Machine

/-! ### `goTo` -/

@[simp] theorem goTo_params (P : Phase) (s : State) : (goTo P s).params = s.params := rfl
@[simp] theorem goTo_lamp (P : Phase) (s : State) : (goTo P s).lamp = s.lamp := rfl
@[simp] theorem goTo_sol (P : Phase) (s : State) : (goTo P s).sol = s.sol := rfl
@[simp] theorem goTo_bright (P : Phase) (s : State) : (goTo P s).bright = s.bright := rfl
@[simp] theorem goTo_eventCount (P : Phase) (s : State) : (goTo P s).eventCount = s.eventCount := rfl
@[simp] theorem goTo_addressErrorCount (P : Phase) (s : State) : (goTo P s).addressErrorCount = s.addressErrorCount := rfl
@[simp] theorem goTo_overflowFlag (P : Phase) (s : State) : (goTo P s).overflowFlag = s.overflowFlag := rfl
@[simp] theorem goTo_maxDepth (P : Phase) (s : State) : (goTo P s).maxDepth = s.maxDepth := rfl
@[simp] theorem goTo_rowsDetected (P : Phase) (s : State) : (goTo P s).rowsDetected = s.rowsDetected := rfl
@[simp] theorem goTo_colsDetected (P : Phase) (s : State) : (goTo P s).colsDetected = s.colsDetected := rfl
@[simp] theorem goTo_zcDetected (P : Phase) (s : State) : (goTo P s).zcDetected = s.zcDetected := rfl
@[simp] theorem goTo_triacDetected (P : Phase) (s : State) : (goTo P s).triacDetected = s.triacDetected := rfl
@[simp] theorem goTo_pendingCol (P : Phase) (s : State) : (goTo P s).pendingCol = s.pendingCol := rfl
@[simp] theorem goTo_latched (P : Phase) (s : State) : (goTo P s).latched = s.latched := rfl
@[simp] theorem goTo_acc (P : Phase) (s : State) : (goTo P s).acc = s.acc := rfl
@[simp] theorem goTo_zcTime (P : Phase) (s : State) : (goTo P s).zcTime = s.zcTime := rfl
@[simp] theorem goTo_zcWin (P : Phase) (s : State) : (goTo P s).zcWin = s.zcWin := rfl
@[simp] theorem goTo_lightsChanged (P : Phase) (s : State) : (goTo P s).lightsChanged = s.lightsChanged := rfl
@[simp] theorem goTo_solChanged (P : Phase) (s : State) : (goTo P s).solChanged = s.solChanged := rfl
@[simp] theorem goTo_cur (P : Phase) (s : State) : (goTo P s).cur = s.cur := rfl
@[simp] theorem goTo_ph (P : Phase) (s : State) : (goTo P s).ph = P := rfl
@[simp] theorem goTo_enable (P : Phase) (s : State) : (goTo P s).enable = s.enable := rfl
@[simp] theorem goTo_running (P : Phase) (s : State) : (goTo P s).running = s.running := rfl
@[simp] theorem goTo_samplerActive (P : Phase) (s : State) : (goTo P s).samplerActive = s.samplerActive := rfl
@[simp] theorem goTo_lampCb (P : Phase) (s : State) : (goTo P s).lampCb = s.lampCb := rfl
@[simp] theorem goTo_solCb (P : Phase) (s : State) : (goTo P s).solCb = s.solCb := rfl
@[simp] theorem goTo_lampLock (P : Phase) (s : State) : (goTo P s).lampLock = s.lampLock := rfl
@[simp] theorem goTo_solLock (P : Phase) (s : State) : (goTo P s).solLock = s.solLock := rfl
@[simp] theorem goTo_dq (P : Phase) (s : State) : (goTo P s).dq = s.dq := rfl
@[simp] theorem goTo_zq (P : Phase) (s : State) : (goTo P s).zq = s.zq := rfl
@[simp] theorem goTo_clock (P : Phase) (s : State) : (goTo P s).clock = s.clock := rfl
@[simp] theorem goTo_script (P : Phase) (s : State) : (goTo P s).script = s.script := rfl
@[simp] theorem goTo_caller (P : Phase) (s : State) : (goTo P s).caller = s.caller := rfl
@[simp] theorem goTo_calls (P : Phase) (s : State) : (goTo P s).calls = s.calls := rfl
@[simp] theorem goTo_out (P : Phase) (s : State) : (goTo P s).out = s.out := rfl

/-! ### `emit` -/

@[simp] theorem emit_params (o : Output) (s : State) : (emit o s).params = s.params := rfl
@[simp] theorem emit_lamp (o : Output) (s : State) : (emit o s).lamp = s.lamp := rfl
@[simp] theorem emit_sol (o : Output) (s : State) : (emit o s).sol = s.sol := rfl
@[simp] theorem emit_bright (o : Output) (s : State) : (emit o s).bright = s.bright := rfl
@[simp] theorem emit_eventCount (o : Output) (s : State) : (emit o s).eventCount = s.eventCount := rfl
@[simp] theorem emit_addressErrorCount (o : Output) (s : State) : (emit o s).addressErrorCount = s.addressErrorCount := rfl
@[simp] theorem emit_overflowFlag (o : Output) (s : State) : (emit o s).overflowFlag = s.overflowFlag := rfl
@[simp] theorem emit_maxDepth (o : Output) (s : State) : (emit o s).maxDepth = s.maxDepth := rfl
@[simp] theorem emit_rowsDetected (o : Output) (s : State) : (emit o s).rowsDetected = s.rowsDetected := rfl
@[simp] theorem emit_colsDetected (o : Output) (s : State) : (emit o s).colsDetected = s.colsDetected := rfl
@[simp] theorem emit_zcDetected (o : Output) (s : State) : (emit o s).zcDetected = s.zcDetected := rfl
@[simp] theorem emit_triacDetected (o : Output) (s : State) : (emit o s).triacDetected = s.triacDetected := rfl
@[simp] theorem emit_pendingCol (o : Output) (s : State) : (emit o s).pendingCol = s.pendingCol := rfl
@[simp] theorem emit_latched (o : Output) (s : State) : (emit o s).latched = s.latched := rfl
@[simp] theorem emit_acc (o : Output) (s : State) : (emit o s).acc = s.acc := rfl
@[simp] theorem emit_zcTime (o : Output) (s : State) : (emit o s).zcTime = s.zcTime := rfl
@[simp] theorem emit_zcWin (o : Output) (s : State) : (emit o s).zcWin = s.zcWin := rfl
@[simp] theorem emit_lightsChanged (o : Output) (s : State) : (emit o s).lightsChanged = s.lightsChanged := rfl
@[simp] theorem emit_solChanged (o : Output) (s : State) : (emit o s).solChanged = s.solChanged := rfl
@[simp] theorem emit_cur (o : Output) (s : State) : (emit o s).cur = s.cur := rfl
@[simp] theorem emit_ph (o : Output) (s : State) : (emit o s).ph = s.ph := rfl
@[simp] theorem emit_enable (o : Output) (s : State) : (emit o s).enable = s.enable := rfl
@[simp] theorem emit_running (o : Output) (s : State) : (emit o s).running = s.running := rfl
@[simp] theorem emit_samplerActive (o : Output) (s : State) : (emit o s).samplerActive = s.samplerActive := rfl
@[simp] theorem emit_lampCb (o : Output) (s : State) : (emit o s).lampCb = s.lampCb := rfl
@[simp] theorem emit_solCb (o : Output) (s : State) : (emit o s).solCb = s.solCb := rfl
@[simp] theorem emit_lampLock (o : Output) (s : State) : (emit o s).lampLock = s.lampLock := rfl
@[simp] theorem emit_solLock (o : Output) (s : State) : (emit o s).solLock = s.solLock := rfl
@[simp] theorem emit_dq (o : Output) (s : State) : (emit o s).dq = s.dq := rfl
@[simp] theorem emit_zq (o : Output) (s : State) : (emit o s).zq = s.zq := rfl
@[simp] theorem emit_clock (o : Output) (s : State) : (emit o s).clock = s.clock := rfl
@[simp] theorem emit_script (o : Output) (s : State) : (emit o s).script = s.script := rfl
@[simp] theorem emit_caller (o : Output) (s : State) : (emit o s).caller = s.caller := rfl
@[simp] theorem emit_calls (o : Output) (s : State) : (emit o s).calls = s.calls := rfl
@[simp] theorem emit_out (o : Output) (s : State) : (emit o s).out = o :: s.out := rfl

/-! ### `raiseBusOverflow` -/

@[simp] theorem raiseBusOverflow_params (s : State) : (raiseBusOverflow s).params = s.params := rfl
@[simp] theorem raiseBusOverflow_lamp (s : State) : (raiseBusOverflow s).lamp = s.lamp := rfl
@[simp] theorem raiseBusOverflow_sol (s : State) : (raiseBusOverflow s).sol = s.sol := rfl
@[simp] theorem raiseBusOverflow_bright (s : State) : (raiseBusOverflow s).bright = s.bright := rfl
@[simp] theorem raiseBusOverflow_eventCount (s : State) : (raiseBusOverflow s).eventCount = s.eventCount := rfl
@[simp] theorem raiseBusOverflow_addressErrorCount (s : State) : (raiseBusOverflow s).addressErrorCount = s.addressErrorCount := rfl
@[simp] theorem raiseBusOverflow_overflowFlag (s : State) : (raiseBusOverflow s).overflowFlag = true := rfl
@[simp] theorem raiseBusOverflow_maxDepth (s : State) : (raiseBusOverflow s).maxDepth = s.maxDepth := rfl
@[simp] theorem raiseBusOverflow_rowsDetected (s : State) : (raiseBusOverflow s).rowsDetected = s.rowsDetected := rfl
@[simp] theorem raiseBusOverflow_colsDetected (s : State) : (raiseBusOverflow s).colsDetected = s.colsDetected := rfl
@[simp] theorem raiseBusOverflow_zcDetected (s : State) : (raiseBusOverflow s).zcDetected = s.zcDetected := rfl
@[simp] theorem raiseBusOverflow_triacDetected (s : State) : (raiseBusOverflow s).triacDetected = s.triacDetected := rfl
@[simp] theorem raiseBusOverflow_pendingCol (s : State) : (raiseBusOverflow s).pendingCol = s.pendingCol := rfl
@[simp] theorem raiseBusOverflow_latched (s : State) : (raiseBusOverflow s).latched = s.latched := rfl
@[simp] theorem raiseBusOverflow_acc (s : State) : (raiseBusOverflow s).acc = s.acc := rfl
@[simp] theorem raiseBusOverflow_zcTime (s : State) : (raiseBusOverflow s).zcTime = s.zcTime := rfl
@[simp] theorem raiseBusOverflow_zcWin (s : State) : (raiseBusOverflow s).zcWin = s.zcWin := rfl
@[simp] theorem raiseBusOverflow_lightsChanged (s : State) : (raiseBusOverflow s).lightsChanged = s.lightsChanged := rfl
@[simp] theorem raiseBusOverflow_solChanged (s : State) : (raiseBusOverflow s).solChanged = s.solChanged := rfl
@[simp] theorem raiseBusOverflow_cur (s : State) : (raiseBusOverflow s).cur = s.cur := rfl
@[simp] theorem raiseBusOverflow_ph (s : State) : (raiseBusOverflow s).ph = s.ph := rfl
@[simp] theorem raiseBusOverflow_enable (s : State) : (raiseBusOverflow s).enable = s.enable := rfl
@[simp] theorem raiseBusOverflow_running (s : State) : (raiseBusOverflow s).running = s.running := rfl
@[simp] theorem raiseBusOverflow_samplerActive (s : State) : (raiseBusOverflow s).samplerActive = s.samplerActive := rfl
@[simp] theorem raiseBusOverflow_lampCb (s : State) : (raiseBusOverflow s).lampCb = s.lampCb := rfl
@[simp] theorem raiseBusOverflow_solCb (s : State) : (raiseBusOverflow s).solCb = s.solCb := rfl
@[simp] theorem raiseBusOverflow_lampLock (s : State) : (raiseBusOverflow s).lampLock = s.lampLock := rfl
@[simp] theorem raiseBusOverflow_solLock (s : State) : (raiseBusOverflow s).solLock = s.solLock := rfl
@[simp] theorem raiseBusOverflow_dq (s : State) : (raiseBusOverflow s).dq = s.dq := rfl
@[simp] theorem raiseBusOverflow_zq (s : State) : (raiseBusOverflow s).zq = s.zq := rfl
@[simp] theorem raiseBusOverflow_clock (s : State) : (raiseBusOverflow s).clock = s.clock := rfl
@[simp] theorem raiseBusOverflow_script (s : State) : (raiseBusOverflow s).script = s.script := rfl
@[simp] theorem raiseBusOverflow_caller (s : State) : (raiseBusOverflow s).caller = s.caller := rfl
@[simp] theorem raiseBusOverflow_calls (s : State) : (raiseBusOverflow s).calls = s.calls := rfl
@[simp] theorem raiseBusOverflow_out (s : State) : (raiseBusOverflow s).out = s.out := rfl

/-! ### `raiseAddressError` -/

@[simp] theorem raiseAddressError_params (s : State) : (raiseAddressError s).params = s.params := rfl
@[simp] theorem raiseAddressError_lamp (s : State) : (raiseAddressError s).lamp = s.lamp := rfl
@[simp] theorem raiseAddressError_sol (s : State) : (raiseAddressError s).sol = s.sol := rfl
@[simp] theorem raiseAddressError_bright (s : State) : (raiseAddressError s).bright = s.bright := rfl
@[simp] theorem raiseAddressError_eventCount (s : State) : (raiseAddressError s).eventCount = s.eventCount := rfl
@[simp] theorem raiseAddressError_addressErrorCount (s : State) : (raiseAddressError s).addressErrorCount = bump s.params s.addressErrorCount := rfl
@[simp] theorem raiseAddressError_overflowFlag (s : State) : (raiseAddressError s).overflowFlag = s.overflowFlag := rfl
@[simp] theorem raiseAddressError_maxDepth (s : State) : (raiseAddressError s).maxDepth = s.maxDepth := rfl
@[simp] theorem raiseAddressError_rowsDetected (s : State) : (raiseAddressError s).rowsDetected = s.rowsDetected := rfl
@[simp] theorem raiseAddressError_colsDetected (s : State) : (raiseAddressError s).colsDetected = s.colsDetected := rfl
@[simp] theorem raiseAddressError_zcDetected (s : State) : (raiseAddressError s).zcDetected = s.zcDetected := rfl
@[simp] theorem raiseAddressError_triacDetected (s : State) : (raiseAddressError s).triacDetected = s.triacDetected := rfl
@[simp] theorem raiseAddressError_pendingCol (s : State) : (raiseAddressError s).pendingCol = s.pendingCol := rfl
@[simp] theorem raiseAddressError_latched (s : State) : (raiseAddressError s).latched = s.latched := rfl
@[simp] theorem raiseAddressError_acc (s : State) : (raiseAddressError s).acc = s.acc := rfl
@[simp] theorem raiseAddressError_zcTime (s : State) : (raiseAddressError s).zcTime = s.zcTime := rfl
@[simp] theorem raiseAddressError_zcWin (s : State) : (raiseAddressError s).zcWin = s.zcWin := rfl
@[simp] theorem raiseAddressError_lightsChanged (s : State) : (raiseAddressError s).lightsChanged = s.lightsChanged := rfl
@[simp] theorem raiseAddressError_solChanged (s : State) : (raiseAddressError s).solChanged = s.solChanged := rfl
@[simp] theorem raiseAddressError_cur (s : State) : (raiseAddressError s).cur = s.cur := rfl
@[simp] theorem raiseAddressError_ph (s : State) : (raiseAddressError s).ph = s.ph := rfl
@[simp] theorem raiseAddressError_enable (s : State) : (raiseAddressError s).enable = s.enable := rfl
@[simp] theorem raiseAddressError_running (s : State) : (raiseAddressError s).running = s.running := rfl
@[simp] theorem raiseAddressError_samplerActive (s : State) : (raiseAddressError s).samplerActive = s.samplerActive := rfl
@[simp] theorem raiseAddressError_lampCb (s : State) : (raiseAddressError s).lampCb = s.lampCb := rfl
@[simp] theorem raiseAddressError_solCb (s : State) : (raiseAddressError s).solCb = s.solCb := rfl
@[simp] theorem raiseAddressError_lampLock (s : State) : (raiseAddressError s).lampLock = s.lampLock := rfl
@[simp] theorem raiseAddressError_solLock (s : State) : (raiseAddressError s).solLock = s.solLock := rfl
@[simp] theorem raiseAddressError_dq (s : State) : (raiseAddressError s).dq = s.dq := rfl
@[simp] theorem raiseAddressError_zq (s : State) : (raiseAddressError s).zq = s.zq := rfl
@[simp] theorem raiseAddressError_clock (s : State) : (raiseAddressError s).clock = s.clock := rfl
@[simp] theorem raiseAddressError_script (s : State) : (raiseAddressError s).script = s.script := rfl
@[simp] theorem raiseAddressError_caller (s : State) : (raiseAddressError s).caller = s.caller := rfl
@[simp] theorem raiseAddressError_calls (s : State) : (raiseAddressError s).calls = s.calls := rfl
@[simp] theorem raiseAddressError_out (s : State) : (raiseAddressError s).out = s.out := rfl

/-! ### `countEvent` -/

@[simp] theorem countEvent_params (s : State) : (countEvent s).params = s.params := rfl
@[simp] theorem countEvent_lamp (s : State) : (countEvent s).lamp = s.lamp := rfl
@[simp] theorem countEvent_sol (s : State) : (countEvent s).sol = s.sol := rfl
@[simp] theorem countEvent_bright (s : State) : (countEvent s).bright = s.bright := rfl
@[simp] theorem countEvent_eventCount (s : State) : (countEvent s).eventCount = bump s.params s.eventCount := rfl
@[simp] theorem countEvent_addressErrorCount (s : State) : (countEvent s).addressErrorCount = s.addressErrorCount := rfl
@[simp] theorem countEvent_overflowFlag (s : State) : (countEvent s).overflowFlag = s.overflowFlag := rfl
@[simp] theorem countEvent_maxDepth (s : State) : (countEvent s).maxDepth = s.maxDepth := rfl
@[simp] theorem countEvent_rowsDetected (s : State) : (countEvent s).rowsDetected = s.rowsDetected := rfl
@[simp] theorem countEvent_colsDetected (s : State) : (countEvent s).colsDetected = s.colsDetected := rfl
@[simp] theorem countEvent_zcDetected (s : State) : (countEvent s).zcDetected = s.zcDetected := rfl
@[simp] theorem countEvent_triacDetected (s : State) : (countEvent s).triacDetected = s.triacDetected := rfl
@[simp] theorem countEvent_pendingCol (s : State) : (countEvent s).pendingCol = s.pendingCol := rfl
@[simp] theorem countEvent_latched (s : State) : (countEvent s).latched = s.latched := rfl
@[simp] theorem countEvent_acc (s : State) : (countEvent s).acc = s.acc := rfl
@[simp] theorem countEvent_zcTime (s : State) : (countEvent s).zcTime = s.zcTime := rfl
@[simp] theorem countEvent_zcWin (s : State) : (countEvent s).zcWin = s.zcWin := rfl
@[simp] theorem countEvent_lightsChanged (s : State) : (countEvent s).lightsChanged = s.lightsChanged := rfl
@[simp] theorem countEvent_solChanged (s : State) : (countEvent s).solChanged = s.solChanged := rfl
@[simp] theorem countEvent_cur (s : State) : (countEvent s).cur = s.cur := rfl
@[simp] theorem countEvent_ph (s : State) : (countEvent s).ph = s.ph := rfl
@[simp] theorem countEvent_enable (s : State) : (countEvent s).enable = s.enable := rfl
@[simp] theorem countEvent_running (s : State) : (countEvent s).running = s.running := rfl
@[simp] theorem countEvent_samplerActive (s : State) : (countEvent s).samplerActive = s.samplerActive := rfl
@[simp] theorem countEvent_lampCb (s : State) : (countEvent s).lampCb = s.lampCb := rfl
@[simp] theorem countEvent_solCb (s : State) : (countEvent s).solCb = s.solCb := rfl
@[simp] theorem countEvent_lampLock (s : State) : (countEvent s).lampLock = s.lampLock := rfl
@[simp] theorem countEvent_solLock (s : State) : (countEvent s).solLock = s.solLock := rfl
@[simp] theorem countEvent_dq (s : State) : (countEvent s).dq = s.dq := rfl
@[simp] theorem countEvent_zq (s : State) : (countEvent s).zq = s.zq := rfl
@[simp] theorem countEvent_clock (s : State) : (countEvent s).clock = s.clock := rfl
@[simp] theorem countEvent_script (s : State) : (countEvent s).script = s.script := rfl
@[simp] theorem countEvent_caller (s : State) : (countEvent s).caller = s.caller := rfl
@[simp] theorem countEvent_calls (s : State) : (countEvent s).calls = s.calls := rfl
@[simp] theorem countEvent_out (s : State) : (countEvent s).out = s.out := rfl

/-! ### `writeByte` -/

@[simp] theorem writeByte_params (g : Group) (i : Nat) (v : Byte) (s : State) : (writeByte g i v s).params = s.params := by cases g <;> rfl
@[simp] theorem writeByte_eventCount (g : Group) (i : Nat) (v : Byte) (s : State) : (writeByte g i v s).eventCount = s.eventCount := by cases g <;> rfl
@[simp] theorem writeByte_addressErrorCount (g : Group) (i : Nat) (v : Byte) (s : State) : (writeByte g i v s).addressErrorCount = s.addressErrorCount := by cases g <;> rfl
@[simp] theorem writeByte_overflowFlag (g : Group) (i : Nat) (v : Byte) (s : State) : (writeByte g i v s).overflowFlag = s.overflowFlag := by cases g <;> rfl
@[simp] theorem writeByte_maxDepth (g : Group) (i : Nat) (v : Byte) (s : State) : (writeByte g i v s).maxDepth = s.maxDepth := by cases g <;> rfl
@[simp] theorem writeByte_rowsDetected (g : Group) (i : Nat) (v : Byte) (s : State) : (writeByte g i v s).rowsDetected = s.rowsDetected := by cases g <;> rfl
@[simp] theorem writeByte_colsDetected (g : Group) (i : Nat) (v : Byte) (s : State) : (writeByte g i v s).colsDetected = s.colsDetected := by cases g <;> rfl
@[simp] theorem writeByte_zcDetected (g : Group) (i : Nat) (v : Byte) (s : State) : (writeByte g i v s).zcDetected = s.zcDetected := by cases g <;> rfl
@[simp] theorem writeByte_triacDetected (g : Group) (i : Nat) (v : Byte) (s : State) : (writeByte g i v s).triacDetected = s.triacDetected := by cases g <;> rfl
@[simp] theorem writeByte_pendingCol (g : Group) (i : Nat) (v : Byte) (s : State) : (writeByte g i v s).pendingCol = s.pendingCol := by cases g <;> rfl
@[simp] theorem writeByte_latched (g : Group) (i : Nat) (v : Byte) (s : State) : (writeByte g i v s).latched = s.latched := by cases g <;> rfl
@[simp] theorem writeByte_acc (g : Group) (i : Nat) (v : Byte) (s : State) : (writeByte g i v s).acc = s.acc := by cases g <;> rfl
@[simp] theorem writeByte_zcTime (g : Group) (i : Nat) (v : Byte) (s : State) : (writeByte g i v s).zcTime = s.zcTime := by cases g <;> rfl
@[simp] theorem writeByte_zcWin (g : Group) (i : Nat) (v : Byte) (s : State) : (writeByte g i v s).zcWin = s.zcWin := by cases g <;> rfl
@[simp] theorem writeByte_lightsChanged (g : Group) (i : Nat) (v : Byte) (s : State) : (writeByte g i v s).lightsChanged = s.lightsChanged := by cases g <;> rfl
@[simp] theorem writeByte_solChanged (g : Group) (i : Nat) (v : Byte) (s : State) : (writeByte g i v s).solChanged = s.solChanged := by cases g <;> rfl
@[simp] theorem writeByte_cur (g : Group) (i : Nat) (v : Byte) (s : State) : (writeByte g i v s).cur = s.cur := by cases g <;> rfl
@[simp] theorem writeByte_ph (g : Group) (i : Nat) (v : Byte) (s : State) : (writeByte g i v s).ph = s.ph := by cases g <;> rfl
@[simp] theorem writeByte_enable (g : Group) (i : Nat) (v : Byte) (s : State) : (writeByte g i v s).enable = s.enable := by cases g <;> rfl
@[simp] theorem writeByte_running (g : Group) (i : Nat) (v : Byte) (s : State) : (writeByte g i v s).running = s.running := by cases g <;> rfl
@[simp] theorem writeByte_samplerActive (g : Group) (i : Nat) (v : Byte) (s : State) : (writeByte g i v s).samplerActive = s.samplerActive := by cases g <;> rfl
@[simp] theorem writeByte_lampCb (g : Group) (i : Nat) (v : Byte) (s : State) : (writeByte g i v s).lampCb = s.lampCb := by cases g <;> rfl
@[simp] theorem writeByte_solCb (g : Group) (i : Nat) (v : Byte) (s : State) : (writeByte g i v s).solCb = s.solCb := by cases g <;> rfl
@[simp] theorem writeByte_lampLock (g : Group) (i : Nat) (v : Byte) (s : State) : (writeByte g i v s).lampLock = s.lampLock := by cases g <;> rfl
@[simp] theorem writeByte_solLock (g : Group) (i : Nat) (v : Byte) (s : State) : (writeByte g i v s).solLock = s.solLock := by cases g <;> rfl
@[simp] theorem writeByte_dq (g : Group) (i : Nat) (v : Byte) (s : State) : (writeByte g i v s).dq = s.dq := by cases g <;> rfl
@[simp] theorem writeByte_zq (g : Group) (i : Nat) (v : Byte) (s : State) : (writeByte g i v s).zq = s.zq := by cases g <;> rfl
@[simp] theorem writeByte_clock (g : Group) (i : Nat) (v : Byte) (s : State) : (writeByte g i v s).clock = s.clock := by cases g <;> rfl
@[simp] theorem writeByte_script (g : Group) (i : Nat) (v : Byte) (s : State) : (writeByte g i v s).script = s.script := by cases g <;> rfl
@[simp] theorem writeByte_caller (g : Group) (i : Nat) (v : Byte) (s : State) : (writeByte g i v s).caller = s.caller := by cases g <;> rfl
@[simp] theorem writeByte_calls (g : Group) (i : Nat) (v : Byte) (s : State) : (writeByte g i v s).calls = s.calls := by cases g <;> rfl
@[simp] theorem writeByte_out (g : Group) (i : Nat) (v : Byte) (s : State) : (writeByte g i v s).out = s.out := by cases g <;> rfl

/-! ### `setLock` -/

@[simp] theorem setLock_params (g : Group) (h : Option Ctx) (s : State) : (setLock g h s).params = s.params := by cases g <;> rfl
@[simp] theorem setLock_lamp (g : Group) (h : Option Ctx) (s : State) : (setLock g h s).lamp = s.lamp := by cases g <;> rfl
@[simp] theorem setLock_sol (g : Group) (h : Option Ctx) (s : State) : (setLock g h s).sol = s.sol := by cases g <;> rfl
@[simp] theorem setLock_bright (g : Group) (h : Option Ctx) (s : State) : (setLock g h s).bright = s.bright := by cases g <;> rfl
@[simp] theorem setLock_eventCount (g : Group) (h : Option Ctx) (s : State) : (setLock g h s).eventCount = s.eventCount := by cases g <;> rfl
@[simp] theorem setLock_addressErrorCount (g : Group) (h : Option Ctx) (s : State) : (setLock g h s).addressErrorCount = s.addressErrorCount := by cases g <;> rfl
@[simp] theorem setLock_overflowFlag (g : Group) (h : Option Ctx) (s : State) : (setLock g h s).overflowFlag = s.overflowFlag := by cases g <;> rfl
@[simp] theorem setLock_maxDepth (g : Group) (h : Option Ctx) (s : State) : (setLock g h s).maxDepth = s.maxDepth := by cases g <;> rfl
@[simp] theorem setLock_rowsDetected (g : Group) (h : Option Ctx) (s : State) : (setLock g h s).rowsDetected = s.rowsDetected := by cases g <;> rfl
@[simp] theorem setLock_colsDetected (g : Group) (h : Option Ctx) (s : State) : (setLock g h s).colsDetected = s.colsDetected := by cases g <;> rfl
@[simp] theorem setLock_zcDetected (g : Group) (h : Option Ctx) (s : State) : (setLock g h s).zcDetected = s.zcDetected := by cases g <;> rfl
@[simp] theorem setLock_triacDetected (g : Group) (h : Option Ctx) (s : State) : (setLock g h s).triacDetected = s.triacDetected := by cases g <;> rfl
@[simp] theorem setLock_pendingCol (g : Group) (h : Option Ctx) (s : State) : (setLock g h s).pendingCol = s.pendingCol := by cases g <;> rfl
@[simp] theorem setLock_latched (g : Group) (h : Option Ctx) (s : State) : (setLock g h s).latched = s.latched := by cases g <;> rfl
@[simp] theorem setLock_acc (g : Group) (h : Option Ctx) (s : State) : (setLock g h s).acc = s.acc := by cases g <;> rfl
@[simp] theorem setLock_zcTime (g : Group) (h : Option Ctx) (s : State) : (setLock g h s).zcTime = s.zcTime := by cases g <;> rfl
@[simp] theorem setLock_zcWin (g : Group) (h : Option Ctx) (s : State) : (setLock g h s).zcWin = s.zcWin := by cases g <;> rfl
@[simp] theorem setLock_lightsChanged (g : Group) (h : Option Ctx) (s : State) : (setLock g h s).lightsChanged = s.lightsChanged := by cases g <;> rfl
@[simp] theorem setLock_solChanged (g : Group) (h : Option Ctx) (s : State) : (setLock g h s).solChanged = s.solChanged := by cases g <;> rfl
@[simp] theorem setLock_cur (g : Group) (h : Option Ctx) (s : State) : (setLock g h s).cur = s.cur := by cases g <;> rfl
@[simp] theorem setLock_ph (g : Group) (h : Option Ctx) (s : State) : (setLock g h s).ph = s.ph := by cases g <;> rfl
@[simp] theorem setLock_enable (g : Group) (h : Option Ctx) (s : State) : (setLock g h s).enable = s.enable := by cases g <;> rfl
@[simp] theorem setLock_running (g : Group) (h : Option Ctx) (s : State) : (setLock g h s).running = s.running := by cases g <;> rfl
@[simp] theorem setLock_samplerActive (g : Group) (h : Option Ctx) (s : State) : (setLock g h s).samplerActive = s.samplerActive := by cases g <;> rfl
@[simp] theorem setLock_lampCb (g : Group) (h : Option Ctx) (s : State) : (setLock g h s).lampCb = s.lampCb := by cases g <;> rfl
@[simp] theorem setLock_solCb (g : Group) (h : Option Ctx) (s : State) : (setLock g h s).solCb = s.solCb := by cases g <;> rfl
@[simp] theorem setLock_dq (g : Group) (h : Option Ctx) (s : State) : (setLock g h s).dq = s.dq := by cases g <;> rfl
@[simp] theorem setLock_zq (g : Group) (h : Option Ctx) (s : State) : (setLock g h s).zq = s.zq := by cases g <;> rfl
@[simp] theorem setLock_clock (g : Group) (h : Option Ctx) (s : State) : (setLock g h s).clock = s.clock := by cases g <;> rfl
@[simp] theorem setLock_script (g : Group) (h : Option Ctx) (s : State) : (setLock g h s).script = s.script := by cases g <;> rfl
@[simp] theorem setLock_caller (g : Group) (h : Option Ctx) (s : State) : (setLock g h s).caller = s.caller := by cases g <;> rfl
@[simp] theorem setLock_calls (g : Group) (h : Option Ctx) (s : State) : (setLock g h s).calls = s.calls := by cases g <;> rfl
@[simp] theorem setLock_out (g : Group) (h : Option Ctx) (s : State) : (setLock g h s).out = s.out := by cases g <;> rfl

/-! ### `setCall` -/

@[simp] theorem setCall_params (c : Ctx) (k : Call) (s : State) : (setCall c k s).params = s.params := rfl
@[simp] theorem setCall_lamp (c : Ctx) (k : Call) (s : State) : (setCall c k s).lamp = s.lamp := rfl
@[simp] theorem setCall_sol (c : Ctx) (k : Call) (s : State) : (setCall c k s).sol = s.sol := rfl
@[simp] theorem setCall_bright (c : Ctx) (k : Call) (s : State) : (setCall c k s).bright = s.bright := rfl
@[simp] theorem setCall_eventCount (c : Ctx) (k : Call) (s : State) : (setCall c k s).eventCount = s.eventCount := rfl
@[simp] theorem setCall_addressErrorCount (c : Ctx) (k : Call) (s : State) : (setCall c k s).addressErrorCount = s.addressErrorCount := rfl
@[simp] theorem setCall_overflowFlag (c : Ctx) (k : Call) (s : State) : (setCall c k s).overflowFlag = s.overflowFlag := rfl
@[simp] theorem setCall_maxDepth (c : Ctx) (k : Call) (s : State) : (setCall c k s).maxDepth = s.maxDepth := rfl
@[simp] theorem setCall_rowsDetected (c : Ctx) (k : Call) (s : State) : (setCall c k s).rowsDetected = s.rowsDetected := rfl
@[simp] theorem setCall_colsDetected (c : Ctx) (k : Call) (s : State) : (setCall c k s).colsDetected = s.colsDetected := rfl
@[simp] theorem setCall_zcDetected (c : Ctx) (k : Call) (s : State) : (setCall c k s).zcDetected = s.zcDetected := rfl
@[simp] theorem setCall_triacDetected (c : Ctx) (k : Call) (s : State) : (setCall c k s).triacDetected = s.triacDetected := rfl
@[simp] theorem setCall_pendingCol (c : Ctx) (k : Call) (s : State) : (setCall c k s).pendingCol = s.pendingCol := rfl
@[simp] theorem setCall_latched (c : Ctx) (k : Call) (s : State) : (setCall c k s).latched = s.latched := rfl
@[simp] theorem setCall_acc (c : Ctx) (k : Call) (s : State) : (setCall c k s).acc = s.acc := rfl
@[simp] theorem setCall_zcTime (c : Ctx) (k : Call) (s : State) : (setCall c k s).zcTime = s.zcTime := rfl
@[simp] theorem setCall_zcWin (c : Ctx) (k : Call) (s : State) : (setCall c k s).zcWin = s.zcWin := rfl
@[simp] theorem setCall_lightsChanged (c : Ctx) (k : Call) (s : State) : (setCall c k s).lightsChanged = s.lightsChanged := rfl
@[simp] theorem setCall_solChanged (c : Ctx) (k : Call) (s : State) : (setCall c k s).solChanged = s.solChanged := rfl
@[simp] theorem setCall_cur (c : Ctx) (k : Call) (s : State) : (setCall c k s).cur = s.cur := rfl
@[simp] theorem setCall_ph (c : Ctx) (k : Call) (s : State) : (setCall c k s).ph = s.ph := rfl
@[simp] theorem setCall_enable (c : Ctx) (k : Call) (s : State) : (setCall c k s).enable = s.enable := rfl
@[simp] theorem setCall_running (c : Ctx) (k : Call) (s : State) : (setCall c k s).running = s.running := rfl
@[simp] theorem setCall_samplerActive (c : Ctx) (k : Call) (s : State) : (setCall c k s).samplerActive = s.samplerActive := rfl
@[simp] theorem setCall_lampCb (c : Ctx) (k : Call) (s : State) : (setCall c k s).lampCb = s.lampCb := rfl
@[simp] theorem setCall_solCb (c : Ctx) (k : Call) (s : State) : (setCall c k s).solCb = s.solCb := rfl
@[simp] theorem setCall_lampLock (c : Ctx) (k : Call) (s : State) : (setCall c k s).lampLock = s.lampLock := rfl
@[simp] theorem setCall_solLock (c : Ctx) (k : Call) (s : State) : (setCall c k s).solLock = s.solLock := rfl
@[simp] theorem setCall_dq (c : Ctx) (k : Call) (s : State) : (setCall c k s).dq = s.dq := rfl
@[simp] theorem setCall_zq (c : Ctx) (k : Call) (s : State) : (setCall c k s).zq = s.zq := rfl
@[simp] theorem setCall_clock (c : Ctx) (k : Call) (s : State) : (setCall c k s).clock = s.clock := rfl
@[simp] theorem setCall_script (c : Ctx) (k : Call) (s : State) : (setCall c k s).script = s.script := rfl
@[simp] theorem setCall_caller (c : Ctx) (k : Call) (s : State) : (setCall c k s).caller = s.caller := rfl
@[simp] theorem setCall_out (c : Ctx) (k : Call) (s : State) : (setCall c k s).out = s.out := rfl

/-! ### `endCall` -/

@[simp] theorem endCall_params (c : Ctx) (s : State) : (endCall c s).params = s.params := rfl
@[simp] theorem endCall_lamp (c : Ctx) (s : State) : (endCall c s).lamp = s.lamp := rfl
@[simp] theorem endCall_sol (c : Ctx) (s : State) : (endCall c s).sol = s.sol := rfl
@[simp] theorem endCall_bright (c : Ctx) (s : State) : (endCall c s).bright = s.bright := rfl
@[simp] theorem endCall_eventCount (c : Ctx) (s : State) : (endCall c s).eventCount = s.eventCount := rfl
@[simp] theorem endCall_addressErrorCount (c : Ctx) (s : State) : (endCall c s).addressErrorCount = s.addressErrorCount := rfl
@[simp] theorem endCall_overflowFlag (c : Ctx) (s : State) : (endCall c s).overflowFlag = s.overflowFlag := rfl
@[simp] theorem endCall_maxDepth (c : Ctx) (s : State) : (endCall c s).maxDepth = s.maxDepth := rfl
@[simp] theorem endCall_rowsDetected (c : Ctx) (s : State) : (endCall c s).rowsDetected = s.rowsDetected := rfl
@[simp] theorem endCall_colsDetected (c : Ctx) (s : State) : (endCall c s).colsDetected = s.colsDetected := rfl
@[simp] theorem endCall_zcDetected (c : Ctx) (s : State) : (endCall c s).zcDetected = s.zcDetected := rfl
@[simp] theorem endCall_triacDetected (c : Ctx) (s : State) : (endCall c s).triacDetected = s.triacDetected := rfl
@[simp] theorem endCall_pendingCol (c : Ctx) (s : State) : (endCall c s).pendingCol = s.pendingCol := rfl
@[simp] theorem endCall_latched (c : Ctx) (s : State) : (endCall c s).latched = s.latched := rfl
@[simp] theorem endCall_acc (c : Ctx) (s : State) : (endCall c s).acc = s.acc := rfl
@[simp] theorem endCall_zcTime (c : Ctx) (s : State) : (endCall c s).zcTime = s.zcTime := rfl
@[simp] theorem endCall_zcWin (c : Ctx) (s : State) : (endCall c s).zcWin = s.zcWin := rfl
@[simp] theorem endCall_lightsChanged (c : Ctx) (s : State) : (endCall c s).lightsChanged = s.lightsChanged := rfl
@[simp] theorem endCall_solChanged (c : Ctx) (s : State) : (endCall c s).solChanged = s.solChanged := rfl
@[simp] theorem endCall_cur (c : Ctx) (s : State) : (endCall c s).cur = s.cur := rfl
@[simp] theorem endCall_ph (c : Ctx) (s : State) : (endCall c s).ph = s.ph := rfl
@[simp] theorem endCall_enable (c : Ctx) (s : State) : (endCall c s).enable = s.enable := rfl
@[simp] theorem endCall_running (c : Ctx) (s : State) : (endCall c s).running = s.running := rfl
@[simp] theorem endCall_samplerActive (c : Ctx) (s : State) : (endCall c s).samplerActive = s.samplerActive := rfl
@[simp] theorem endCall_lampCb (c : Ctx) (s : State) : (endCall c s).lampCb = s.lampCb := rfl
@[simp] theorem endCall_solCb (c : Ctx) (s : State) : (endCall c s).solCb = s.solCb := rfl
@[simp] theorem endCall_lampLock (c : Ctx) (s : State) : (endCall c s).lampLock = s.lampLock := rfl
@[simp] theorem endCall_solLock (c : Ctx) (s : State) : (endCall c s).solLock = s.solLock := rfl
@[simp] theorem endCall_dq (c : Ctx) (s : State) : (endCall c s).dq = s.dq := rfl
@[simp] theorem endCall_zq (c : Ctx) (s : State) : (endCall c s).zq = s.zq := rfl
@[simp] theorem endCall_clock (c : Ctx) (s : State) : (endCall c s).clock = s.clock := rfl
@[simp] theorem endCall_script (c : Ctx) (s : State) : (endCall c s).script = s.script := rfl
@[simp] theorem endCall_caller (c : Ctx) (s : State) : (endCall c s).caller = s.caller := rfl
@[simp] theorem endCall_out (c : Ctx) (s : State) : (endCall c s).out = s.out := rfl

/-! ### `recordDepth` -/

@[simp] theorem recordDepth_params (n : Nat) (s : State) : (recordDepth n s).params = s.params := by unfold recordDepth; split <;> rfl
@[simp] theorem recordDepth_lamp (n : Nat) (s : State) : (recordDepth n s).lamp = s.lamp := by unfold recordDepth; split <;> rfl
@[simp] theorem recordDepth_sol (n : Nat) (s : State) : (recordDepth n s).sol = s.sol := by unfold recordDepth; split <;> rfl
@[simp] theorem recordDepth_bright (n : Nat) (s : State) : (recordDepth n s).bright = s.bright := by unfold recordDepth; split <;> rfl
@[simp] theorem recordDepth_eventCount (n : Nat) (s : State) : (recordDepth n s).eventCount = s.eventCount := by unfold recordDepth; split <;> rfl
@[simp] theorem recordDepth_addressErrorCount (n : Nat) (s : State) : (recordDepth n s).addressErrorCount = s.addressErrorCount := by unfold recordDepth; split <;> rfl
@[simp] theorem recordDepth_maxDepth (n : Nat) (s : State) : (recordDepth n s).maxDepth = max s.maxDepth n := by unfold recordDepth; split <;> rfl
@[simp] theorem recordDepth_rowsDetected (n : Nat) (s : State) : (recordDepth n s).rowsDetected = s.rowsDetected := by unfold recordDepth; split <;> rfl
@[simp] theorem recordDepth_colsDetected (n : Nat) (s : State) : (recordDepth n s).colsDetected = s.colsDetected := by unfold recordDepth; split <;> rfl
@[simp] theorem recordDepth_zcDetected (n : Nat) (s : State) : (recordDepth n s).zcDetected = s.zcDetected := by unfold recordDepth; split <;> rfl
@[simp] theorem recordDepth_triacDetected (n : Nat) (s : State) : (recordDepth n s).triacDetected = s.triacDetected := by unfold recordDepth; split <;> rfl
@[simp] theorem recordDepth_pendingCol (n : Nat) (s : State) : (recordDepth n s).pendingCol = s.pendingCol := by unfold recordDepth; split <;> rfl
@[simp] theorem recordDepth_latched (n : Nat) (s : State) : (recordDepth n s).latched = s.latched := by unfold recordDepth; split <;> rfl
@[simp] theorem recordDepth_acc (n : Nat) (s : State) : (recordDepth n s).acc = s.acc := by unfold recordDepth; split <;> rfl
@[simp] theorem recordDepth_zcTime (n : Nat) (s : State) : (recordDepth n s).zcTime = s.zcTime := by unfold recordDepth; split <;> rfl
@[simp] theorem recordDepth_zcWin (n : Nat) (s : State) : (recordDepth n s).zcWin = s.zcWin := by unfold recordDepth; split <;> rfl
@[simp] theorem recordDepth_lightsChanged (n : Nat) (s : State) : (recordDepth n s).lightsChanged = s.lightsChanged := by unfold recordDepth; split <;> rfl
@[simp] theorem recordDepth_solChanged (n : Nat) (s : State) : (recordDepth n s).solChanged = s.solChanged := by unfold recordDepth; split <;> rfl
@[simp] theorem recordDepth_cur (n : Nat) (s : State) : (recordDepth n s).cur = s.cur := by unfold recordDepth; split <;> rfl
@[simp] theorem recordDepth_ph (n : Nat) (s : State) : (recordDepth n s).ph = s.ph := by unfold recordDepth; split <;> rfl
@[simp] theorem recordDepth_enable (n : Nat) (s : State) : (recordDepth n s).enable = s.enable := by unfold recordDepth; split <;> rfl
@[simp] theorem recordDepth_running (n : Nat) (s : State) : (recordDepth n s).running = s.running := by unfold recordDepth; split <;> rfl
@[simp] theorem recordDepth_samplerActive (n : Nat) (s : State) : (recordDepth n s).samplerActive = s.samplerActive := by unfold recordDepth; split <;> rfl
@[simp] theorem recordDepth_lampCb (n : Nat) (s : State) : (recordDepth n s).lampCb = s.lampCb := by unfold recordDepth; split <;> rfl
@[simp] theorem recordDepth_solCb (n : Nat) (s : State) : (recordDepth n s).solCb = s.solCb := by unfold recordDepth; split <;> rfl
@[simp] theorem recordDepth_lampLock (n : Nat) (s : State) : (recordDepth n s).lampLock = s.lampLock := by unfold recordDepth; split <;> rfl
@[simp] theorem recordDepth_solLock (n : Nat) (s : State) : (recordDepth n s).solLock = s.solLock := by unfold recordDepth; split <;> rfl
@[simp] theorem recordDepth_dq (n : Nat) (s : State) : (recordDepth n s).dq = s.dq := by unfold recordDepth; split <;> rfl
@[simp] theorem recordDepth_zq (n : Nat) (s : State) : (recordDepth n s).zq = s.zq := by unfold recordDepth; split <;> rfl
@[simp] theorem recordDepth_clock (n : Nat) (s : State) : (recordDepth n s).clock = s.clock := by unfold recordDepth; split <;> rfl
@[simp] theorem recordDepth_script (n : Nat) (s : State) : (recordDepth n s).script = s.script := by unfold recordDepth; split <;> rfl
@[simp] theorem recordDepth_caller (n : Nat) (s : State) : (recordDepth n s).caller = s.caller := by unfold recordDepth; split <;> rfl
@[simp] theorem recordDepth_calls (n : Nat) (s : State) : (recordDepth n s).calls = s.calls := by unfold recordDepth; split <;> rfl
@[simp] theorem recordDepth_out (n : Nat) (s : State) : (recordDepth n s).out = s.out := by unfold recordDepth; split <;> rfl

/-! ### `halfCycleClose` -/

@[simp] theorem halfCycleClose_params (s : State) : (halfCycleClose s).params = s.params := rfl
@[simp] theorem halfCycleClose_lamp (s : State) : (halfCycleClose s).lamp = s.lamp := rfl
@[simp] theorem halfCycleClose_sol (s : State) : (halfCycleClose s).sol = s.sol := rfl
@[simp] theorem halfCycleClose_bright (s : State) : (halfCycleClose s).bright = s.bright := rfl
@[simp] theorem halfCycleClose_eventCount (s : State) : (halfCycleClose s).eventCount = s.eventCount := rfl
@[simp] theorem halfCycleClose_addressErrorCount (s : State) : (halfCycleClose s).addressErrorCount = s.addressErrorCount := rfl
@[simp] theorem halfCycleClose_overflowFlag (s : State) : (halfCycleClose s).overflowFlag = s.overflowFlag := rfl
@[simp] theorem halfCycleClose_maxDepth (s : State) : (halfCycleClose s).maxDepth = s.maxDepth := rfl
@[simp] theorem halfCycleClose_rowsDetected (s : State) : (halfCycleClose s).rowsDetected = s.rowsDetected := rfl
@[simp] theorem halfCycleClose_colsDetected (s : State) : (halfCycleClose s).colsDetected = s.colsDetected := rfl
@[simp] theorem halfCycleClose_zcDetected (s : State) : (halfCycleClose s).zcDetected = s.zcDetected := rfl
@[simp] theorem halfCycleClose_triacDetected (s : State) : (halfCycleClose s).triacDetected = s.triacDetected := rfl
@[simp] theorem halfCycleClose_pendingCol (s : State) : (halfCycleClose s).pendingCol = s.pendingCol := rfl
@[simp] theorem halfCycleClose_zcTime (s : State) : (halfCycleClose s).zcTime = s.zcTime := rfl
@[simp] theorem halfCycleClose_zcWin (s : State) : (halfCycleClose s).zcWin = s.zcWin := rfl
@[simp] theorem halfCycleClose_lightsChanged (s : State) : (halfCycleClose s).lightsChanged = s.lightsChanged := rfl
@[simp] theorem halfCycleClose_solChanged (s : State) : (halfCycleClose s).solChanged = s.solChanged := rfl
@[simp] theorem halfCycleClose_cur (s : State) : (halfCycleClose s).cur = s.cur := rfl
@[simp] theorem halfCycleClose_ph (s : State) : (halfCycleClose s).ph = s.ph := rfl
@[simp] theorem halfCycleClose_enable (s : State) : (halfCycleClose s).enable = s.enable := rfl
@[simp] theorem halfCycleClose_running (s : State) : (halfCycleClose s).running = s.running := rfl
@[simp] theorem halfCycleClose_samplerActive (s : State) : (halfCycleClose s).samplerActive = s.samplerActive := rfl
@[simp] theorem halfCycleClose_lampCb (s : State) : (halfCycleClose s).lampCb = s.lampCb := rfl
@[simp] theorem halfCycleClose_solCb (s : State) : (halfCycleClose s).solCb = s.solCb := rfl
@[simp] theorem halfCycleClose_lampLock (s : State) : (halfCycleClose s).lampLock = s.lampLock := rfl
@[simp] theorem halfCycleClose_solLock (s : State) : (halfCycleClose s).solLock = s.solLock := rfl
@[simp] theorem halfCycleClose_dq (s : State) : (halfCycleClose s).dq = s.dq := rfl
@[simp] theorem halfCycleClose_zq (s : State) : (halfCycleClose s).zq = s.zq := rfl
@[simp] theorem halfCycleClose_clock (s : State) : (halfCycleClose s).clock = s.clock := rfl
@[simp] theorem halfCycleClose_script (s : State) : (halfCycleClose s).script = s.script := rfl
@[simp] theorem halfCycleClose_caller (s : State) : (halfCycleClose s).caller = s.caller := rfl
@[simp] theorem halfCycleClose_calls (s : State) : (halfCycleClose s).calls = s.calls := rfl
@[simp] theorem halfCycleClose_out (s : State) : (halfCycleClose s).out = s.out := rfl

/-! ### `rollover` -/

@[simp] theorem rollover_params (s : State) : (rollover s).params = s.params := rfl
@[simp] theorem rollover_lamp (s : State) : (rollover s).lamp = s.lamp := rfl
@[simp] theorem rollover_sol (s : State) : (rollover s).sol = s.sol := rfl
@[simp] theorem rollover_eventCount (s : State) : (rollover s).eventCount = s.eventCount := rfl
@[simp] theorem rollover_addressErrorCount (s : State) : (rollover s).addressErrorCount = s.addressErrorCount := rfl
@[simp] theorem rollover_overflowFlag (s : State) : (rollover s).overflowFlag = s.overflowFlag := rfl
@[simp] theorem rollover_maxDepth (s : State) : (rollover s).maxDepth = s.maxDepth := rfl
@[simp] theorem rollover_rowsDetected (s : State) : (rollover s).rowsDetected = s.rowsDetected := rfl
@[simp] theorem rollover_colsDetected (s : State) : (rollover s).colsDetected = s.colsDetected := rfl
@[simp] theorem rollover_zcDetected (s : State) : (rollover s).zcDetected = s.zcDetected := rfl
@[simp] theorem rollover_triacDetected (s : State) : (rollover s).triacDetected = s.triacDetected := rfl
@[simp] theorem rollover_pendingCol (s : State) : (rollover s).pendingCol = s.pendingCol := rfl
@[simp] theorem rollover_zcTime (s : State) : (rollover s).zcTime = s.zcTime := rfl
@[simp] theorem rollover_zcWin (s : State) : (rollover s).zcWin = s.zcWin := rfl
@[simp] theorem rollover_lightsChanged (s : State) : (rollover s).lightsChanged = s.lightsChanged := rfl
@[simp] theorem rollover_solChanged (s : State) : (rollover s).solChanged = s.solChanged := rfl
@[simp] theorem rollover_cur (s : State) : (rollover s).cur = s.cur := rfl
@[simp] theorem rollover_ph (s : State) : (rollover s).ph = s.ph := rfl
@[simp] theorem rollover_enable (s : State) : (rollover s).enable = s.enable := rfl
@[simp] theorem rollover_running (s : State) : (rollover s).running = s.running := rfl
@[simp] theorem rollover_samplerActive (s : State) : (rollover s).samplerActive = s.samplerActive := rfl
@[simp] theorem rollover_lampCb (s : State) : (rollover s).lampCb = s.lampCb := rfl
@[simp] theorem rollover_solCb (s : State) : (rollover s).solCb = s.solCb := rfl
@[simp] theorem rollover_lampLock (s : State) : (rollover s).lampLock = s.lampLock := rfl
@[simp] theorem rollover_solLock (s : State) : (rollover s).solLock = s.solLock := rfl
@[simp] theorem rollover_dq (s : State) : (rollover s).dq = s.dq := rfl
@[simp] theorem rollover_zq (s : State) : (rollover s).zq = s.zq := rfl
@[simp] theorem rollover_clock (s : State) : (rollover s).clock = s.clock := rfl
@[simp] theorem rollover_script (s : State) : (rollover s).script = s.script := rfl
@[simp] theorem rollover_caller (s : State) : (rollover s).caller = s.caller := rfl
@[simp] theorem rollover_calls (s : State) : (rollover s).calls = s.calls := rfl
@[simp] theorem rollover_out (s : State) : (rollover s).out = s.out := rfl

/-! ### `countMarker` -/

@[simp] theorem countMarker_params (s : State) : (countMarker s).params = s.params := by unfold countMarker; split <;> rfl
@[simp] theorem countMarker_lamp (s : State) : (countMarker s).lamp = s.lamp := by unfold countMarker; split <;> rfl
@[simp] theorem countMarker_sol (s : State) : (countMarker s).sol = s.sol := by unfold countMarker; split <;> rfl
@[simp] theorem countMarker_eventCount (s : State) : (countMarker s).eventCount = s.eventCount := by unfold countMarker; split <;> rfl
@[simp] theorem countMarker_addressErrorCount (s : State) : (countMarker s).addressErrorCount = s.addressErrorCount := by unfold countMarker; split <;> rfl
@[simp] theorem countMarker_overflowFlag (s : State) : (countMarker s).overflowFlag = s.overflowFlag := by unfold countMarker; split <;> rfl
@[simp] theorem countMarker_maxDepth (s : State) : (countMarker s).maxDepth = s.maxDepth := by unfold countMarker; split <;> rfl
@[simp] theorem countMarker_rowsDetected (s : State) : (countMarker s).rowsDetected = s.rowsDetected := by unfold countMarker; split <;> rfl
@[simp] theorem countMarker_colsDetected (s : State) : (countMarker s).colsDetected = s.colsDetected := by unfold countMarker; split <;> rfl
@[simp] theorem countMarker_zcDetected (s : State) : (countMarker s).zcDetected = s.zcDetected := by unfold countMarker; split <;> rfl
@[simp] theorem countMarker_triacDetected (s : State) : (countMarker s).triacDetected = s.triacDetected := by unfold countMarker; split <;> rfl
@[simp] theorem countMarker_pendingCol (s : State) : (countMarker s).pendingCol = s.pendingCol := by unfold countMarker; split <;> rfl
@[simp] theorem countMarker_zcTime (s : State) : (countMarker s).zcTime = s.zcTime := by unfold countMarker; split <;> rfl
@[simp] theorem countMarker_lightsChanged (s : State) : (countMarker s).lightsChanged = s.lightsChanged := by unfold countMarker; split <;> rfl
@[simp] theorem countMarker_solChanged (s : State) : (countMarker s).solChanged = s.solChanged := by unfold countMarker; split <;> rfl
@[simp] theorem countMarker_cur (s : State) : (countMarker s).cur = s.cur := by unfold countMarker; split <;> rfl
@[simp] theorem countMarker_ph (s : State) : (countMarker s).ph = s.ph := by unfold countMarker; split <;> rfl
@[simp] theorem countMarker_enable (s : State) : (countMarker s).enable = s.enable := by unfold countMarker; split <;> rfl
@[simp] theorem countMarker_running (s : State) : (countMarker s).running = s.running := by unfold countMarker; split <;> rfl
@[simp] theorem countMarker_samplerActive (s : State) : (countMarker s).samplerActive = s.samplerActive := by unfold countMarker; split <;> rfl
@[simp] theorem countMarker_lampCb (s : State) : (countMarker s).lampCb = s.lampCb := by unfold countMarker; split <;> rfl
@[simp] theorem countMarker_solCb (s : State) : (countMarker s).solCb = s.solCb := by unfold countMarker; split <;> rfl
@[simp] theorem countMarker_lampLock (s : State) : (countMarker s).lampLock = s.lampLock := by unfold countMarker; split <;> rfl
@[simp] theorem countMarker_solLock (s : State) : (countMarker s).solLock = s.solLock := by unfold countMarker; split <;> rfl
@[simp] theorem countMarker_dq (s : State) : (countMarker s).dq = s.dq := by unfold countMarker; split <;> rfl
@[simp] theorem countMarker_zq (s : State) : (countMarker s).zq = s.zq := by unfold countMarker; split <;> rfl
@[simp] theorem countMarker_clock (s : State) : (countMarker s).clock = s.clock := by unfold countMarker; split <;> rfl
@[simp] theorem countMarker_script (s : State) : (countMarker s).script = s.script := by unfold countMarker; split <;> rfl
@[simp] theorem countMarker_caller (s : State) : (countMarker s).caller = s.caller := by unfold countMarker; split <;> rfl
@[simp] theorem countMarker_calls (s : State) : (countMarker s).calls = s.calls := by unfold countMarker; split <;> rfl
@[simp] theorem countMarker_out (s : State) : (countMarker s).out = s.out := by unfold countMarker; split <;> rfl

/-! ### `rowTaken` -/

@[simp] theorem rowTaken_params (s : State) : (rowTaken s).params = s.params := rfl
@[simp] theorem rowTaken_lamp (s : State) : (rowTaken s).lamp = s.lamp := rfl
@[simp] theorem rowTaken_sol (s : State) : (rowTaken s).sol = s.sol := rfl
@[simp] theorem rowTaken_bright (s : State) : (rowTaken s).bright = s.bright := rfl
@[simp] theorem rowTaken_eventCount (s : State) : (rowTaken s).eventCount = s.eventCount := rfl
@[simp] theorem rowTaken_addressErrorCount (s : State) : (rowTaken s).addressErrorCount = s.addressErrorCount := rfl
@[simp] theorem rowTaken_overflowFlag (s : State) : (rowTaken s).overflowFlag = s.overflowFlag := rfl
@[simp] theorem rowTaken_maxDepth (s : State) : (rowTaken s).maxDepth = s.maxDepth := rfl
@[simp] theorem rowTaken_rowsDetected (s : State) : (rowTaken s).rowsDetected = diagBump s.params s.rowsDetected := rfl
@[simp] theorem rowTaken_colsDetected (s : State) : (rowTaken s).colsDetected = s.colsDetected := rfl
@[simp] theorem rowTaken_zcDetected (s : State) : (rowTaken s).zcDetected = s.zcDetected := rfl
@[simp] theorem rowTaken_triacDetected (s : State) : (rowTaken s).triacDetected = s.triacDetected := rfl
@[simp] theorem rowTaken_pendingCol (s : State) : (rowTaken s).pendingCol = none := rfl
@[simp] theorem rowTaken_latched (s : State) : (rowTaken s).latched = s.latched := rfl
@[simp] theorem rowTaken_acc (s : State) : (rowTaken s).acc = s.acc := rfl
@[simp] theorem rowTaken_zcTime (s : State) : (rowTaken s).zcTime = s.zcTime := rfl
@[simp] theorem rowTaken_zcWin (s : State) : (rowTaken s).zcWin = s.zcWin := rfl
@[simp] theorem rowTaken_lightsChanged (s : State) : (rowTaken s).lightsChanged = s.lightsChanged := rfl
@[simp] theorem rowTaken_solChanged (s : State) : (rowTaken s).solChanged = s.solChanged := rfl
@[simp] theorem rowTaken_cur (s : State) : (rowTaken s).cur = s.cur := rfl
@[simp] theorem rowTaken_ph (s : State) : (rowTaken s).ph = .notifyLamp := rfl
@[simp] theorem rowTaken_enable (s : State) : (rowTaken s).enable = s.enable := rfl
@[simp] theorem rowTaken_running (s : State) : (rowTaken s).running = s.running := rfl
@[simp] theorem rowTaken_samplerActive (s : State) : (rowTaken s).samplerActive = s.samplerActive := rfl
@[simp] theorem rowTaken_lampCb (s : State) : (rowTaken s).lampCb = s.lampCb := rfl
@[simp] theorem rowTaken_solCb (s : State) : (rowTaken s).solCb = s.solCb := rfl
@[simp] theorem rowTaken_lampLock (s : State) : (rowTaken s).lampLock = s.lampLock := rfl
@[simp] theorem rowTaken_solLock (s : State) : (rowTaken s).solLock = s.solLock := rfl
@[simp] theorem rowTaken_dq (s : State) : (rowTaken s).dq = s.dq := rfl
@[simp] theorem rowTaken_zq (s : State) : (rowTaken s).zq = s.zq := rfl
@[simp] theorem rowTaken_clock (s : State) : (rowTaken s).clock = s.clock := rfl
@[simp] theorem rowTaken_script (s : State) : (rowTaken s).script = s.script := rfl
@[simp] theorem rowTaken_caller (s : State) : (rowTaken s).caller = s.caller := rfl
@[simp] theorem rowTaken_calls (s : State) : (rowTaken s).calls = s.calls := rfl
@[simp] theorem rowTaken_out (s : State) : (rowTaken s).out = s.out := rfl

end Sys2Proof.Machine
end

