-- ==== Sys2Proof/Laws/Ops.lean ====
section
/-! SUPPORT. One lemma per shared operation that says everything it can do, and the read-after-write laws of the store. -/

namespace Sys2Proof.Machine

/-! ### Counters -/

theorem le_bump (p : Params) (n : Nat) : n ≤ bump p n := by
  unfold bump; split <;> [omega; (split <;> omega)]

theorem bump_mono (p : Params) {m n : Nat} (h : m ≤ n) : bump p m ≤ bump p n := by
  unfold bump; split <;> [omega; (split <;> split <;> omega)]

theorem bump_unbounded {p : Params} (h : p.cntw = none) (n : Nat) : bump p n = n + 1 := by
  simp [bump, h]

theorem recordDepth_overflowFlag (n : Nat) (s : State) :
    (recordDepth n s).overflowFlag = (s.overflowFlag || decide (n = s.params.qcap)) := by
  unfold recordDepth; split <;> simp [*]

/-! ### The store -/

/-- A store inside the register array is the array with that register replaced. -/
theorem setIfInBounds_eq_set {n : Nat} (v : Vector Byte n) (i : Nat) (h : i < n) (x : Byte) :
    v.setIfInBounds i x = v.set i x h := by
  ext j hj
  simp [Vector.getElem_setIfInBounds, Vector.getElem_set]

@[simp] theorem writeByte_lamp_lamp (i : Nat) (v : Byte) (s : State) :
    (writeByte .lamp i v s).lamp = s.lamp.setIfInBounds i v := rfl
@[simp] theorem writeByte_lamp_sol (i : Nat) (v : Byte) (s : State) : (writeByte .lamp i v s).sol = s.sol := rfl
@[simp] theorem writeByte_lamp_bright (i : Nat) (v : Byte) (s : State) : (writeByte .lamp i v s).bright = s.bright := rfl
@[simp] theorem writeByte_sol_lamp (i : Nat) (v : Byte) (s : State) : (writeByte .sol i v s).lamp = s.lamp := rfl
@[simp] theorem writeByte_sol_sol (i : Nat) (v : Byte) (s : State) :
    (writeByte .sol i v s).sol = s.sol.setIfInBounds i v := rfl
@[simp] theorem writeByte_sol_bright (i : Nat) (v : Byte) (s : State) : (writeByte .sol i v s).bright = s.bright := rfl

/-- A read depends on the three groups only. -/
theorem readByte_congr {s t : State} (hl : t.lamp = s.lamp) (hs : t.sol = s.sol) (hb : t.bright = s.bright)
    (g : Group) (i : Nat) : readByte t g i = readByte s g i := by
  cases g <;> simp [readByte, hl, hs, hb]

theorem readByte_writeByte_same (g : Group) (i : Nat) (v : Byte) (s : State) (h : (readByte s g i).isSome) :
    readByte (writeByte g i v s) g i = some v := by
  cases g <;> simp_all [readByte, writeByte]

theorem readByte_writeByte_other (g g' : Group) (i j : Nat) (v : Byte) (s : State) (h : ¬(g' = g ∧ j = i)) :
    readByte (writeByte g i v s) g' j = readByte s g' j := by
  have hij (hg : g' = g) : i ≠ j := fun e => h ⟨hg, e.symm⟩
  cases g <;> cases g' <;> simp_all [readByte, writeByte]

theorem lockedWrite_eq_some {g : Group} {i : Nat} {v : Byte} {s t : State} :
    lockedWrite g i v s = some t ↔ lockOf s g = none ∧ t = writeByte g i v s := by
  unfold lockedWrite
  cases lockOf s g <;> simp [eq_comm]

/-- A locked read answers the state itself, or the state with the caller's own lock given back. -/
theorem lockedRead_cases {g : Group} {s t : State} (h : lockedRead g s = some t) :
    (lockOf s g = none ∧ t = s) ∨ (lockOf s g = some s.caller ∧ t = setLock g none s) := by
  unfold lockedRead at h
  split at h
  · exact .inl ⟨‹_›, by simpa using h.symm⟩
  · split at h
    · subst_vars; exact .inr ⟨‹_›, by simpa using h.symm⟩
    · cases h

/-! ### Packed snapshots -/

/-- Byte i of the packed number is entry i of the list. -/
theorem packBytes_byte (l : List Byte) (i : Nat) : packBytes l / 256 ^ i % 256 = (l.getD i 0).toNat := by
  induction l generalizing i with
  | nil => simp [packBytes]
  | cons b rest ih =>
    have hb : b.toNat < 256 := b.isLt
    cases i with
    | zero => simp [packBytes]; omega
    | succ i =>
      have : packBytes (b :: rest) / 256 ^ (i + 1) = packBytes rest / 256 ^ i := by
        rw [Nat.pow_succ', ← Nat.div_div_eq_div_mul, packBytes]
        congr 1
        omega
      rw [this, ih]
      simp

theorem packBytes_lt (l : List Byte) : packBytes l < 256 ^ l.length := by
  induction l with
  | nil => simp [packBytes]
  | cons b rest ih =>
    have hb : b.toNat < 256 := b.isLt
    rw [packBytes, List.length_cons, Nat.pow_succ]
    omega

/-! ### The queues -/

theorem pushWord_length {p : Params} (hp : 1 ≤ p.qcap) (w : BusWord) {q : List BusWord} (h : q.length ≤ p.qcap) :
    (pushWord p w q).length ≤ p.qcap := by
  unfold pushWord
  split
  · simp; omega
  · split
    · exact h
    · simp; omega

theorem pushMarker_length {p : Params} (m : Marker) {q : List Marker} (h : q.length ≤ p.zqcap) :
    (pushMarker p m q).length ≤ p.zqcap := by
  unfold pushMarker; split <;> [(simp; omega); exact h]

/-! ### Notifications -/

/-- `notify` calls the callback of a set slot and waits, or goes on. -/
theorem notify_cases (slot : Option Callback) (call : Callback → Output) (inside after : Phase) (s : State) :
    (∃ cb, slot = some cb ∧ notify slot call inside after s = emit (call cb) (goTo inside s)) ∨
      (slot = none ∧ notify slot call inside after s = goTo after s) := by
  cases slot <;> simp [notify]

theorem callbackReturned_cases {s t : State} (h : callbackReturned s = some t) :
    (s.ph = .cbLamp ∧ t = goTo .notifySol s) ∨ (s.ph = .cbSol ∧ t = goTo .check s) := by
  unfold callbackReturned at h
  split at h <;> simp_all [eq_comm]

/-! ### Host calls in progress -/

@[simp] theorem callOf_setCall (c : Ctx) (k : Call) (s : State) : callOf c (setCall c k s) = some k := by
  simp [callOf, setCall]

@[simp] theorem callOf_endCall (c : Ctx) (s : State) : callOf c (endCall c s) = none := by
  simp [callOf, endCall]

theorem callOf_setCall_other {c d : Ctx} (h : d ≠ c) (k : Call) (s : State) :
    callOf d (setCall c k s) = callOf d s := by
  simp only [callOf, setCall, List.find?_cons, Ne.symm h, decide_false, List.find?_filter]
  congr 2
  funext e
  by_cases he : e.1 = d <;> simp [he, h]

theorem callOf_endCall_other {c d : Ctx} (h : d ≠ c) (s : State) : callOf d (endCall c s) = callOf d s := by
  simp only [callOf, endCall, List.find?_filter]
  congr 2
  funext e
  by_cases he : e.1 = d <;> simp [he, h]

theorem unlessCallback_next {s t : State} {r : Result} (h : unlessCallback s r = .next t) :
    s.caller ≠ .callback ∧ r = .next t := by
  unfold unlessCallback at h
  split at h
  · cases h
  · exact ⟨‹_›, h⟩

theorem unlessCallback_of_ne {s : State} (h : s.caller ≠ .callback) (r : Result) : unlessCallback s r = r := by
  simp [unlessCallback, h]

/-! ### The storing meanings -/

/-- Everything a `SOLn` word can do: nothing to store, a store with the lock free, or a wait. -/
theorem routeSol_cases (i : Fin 4) (d : Byte) (s : State) :
    (s.sol[i] = d ∧ routeSol i d s = .next (goTo .notifyLamp s)) ∨
      (s.sol[i] ≠ d ∧ s.solLock = none ∧
        routeSol i d s = .next { writeByte .sol i.val d (goTo .notifyLamp s) with solChanged := true }) ∨
      (s.sol[i] ≠ d ∧ s.solLock ≠ none ∧ routeSol i d s = .next s) := by
  unfold routeSol lockedWrite
  by_cases h : s.sol[i] = d
  · simp [h]
  · cases hl : s.solLock <;> simp_all [lockOf]

/-- Everything an `LROW` word can do: nothing to store, a store with the lock free, or a wait. -/
theorem execLrow_cases (d : Byte) (s : State) :
    (lrowStore d s = none ∧ execLrow d s = .next (rowTaken s)) ∨
      (∃ c, lrowStore d s = some c ∧ s.lampLock = none ∧
        execLrow d s = .next { writeByte .lamp c.val d (rowTaken s) with lightsChanged := true }) ∨
      (∃ c, lrowStore d s = some c ∧ s.lampLock ≠ none ∧ execLrow d s = .next s) := by
  unfold execLrow lockedWrite
  cases h : lrowStore d s
  · simp
  · cases hl : s.lampLock <;> simp_all [lockOf]

theorem lrowStore_eq_some {d : Byte} {s : State} {c : Fin 8} :
    lrowStore d s = some c ↔ s.pendingCol = some c ∧ s.lamp[c] ≠ d := by
  unfold lrowStore
  cases h : s.pendingCol with
  | none => simp
  | some c' =>
    by_cases hd : s.lamp[c'] = d
    · simp only [hd, if_true, reduceCtorEq, false_iff, not_and]
      rintro ⟨⟩; simpa using hd
    · simp only [hd, if_false, Option.some.injEq, iff_self_and]
      rintro rfl; exact hd

end Sys2Proof.Machine
end

