-- ==== Sys2Proof/Laws/PerInstr.lean ====
section
/-! SUPPORT. Statements made instruction by instruction. RowPattern: under the reference parameters the encoder writes the
form that the instruction's row of spec/opcode_table.json shows. -/

open Sys2Proof

namespace Sys2Proof.Laws

/-- The form of an instruction as its row's `encoding` column writes it, with the operand bits filled in (R104, R105). -/
def RowPattern.row : Instr → Encoded
  | .triacs d => .bw16 (0b00000001#8 ++ d)
  | .sol1 d => .bw16 (0b00000010#8 ++ d)
  | .sol2 d => .bw16 (0b00000100#8 ++ d)
  | .sol3 d => .bw16 (0b00001000#8 ++ d)
  | .sol4 d => .bw16 (0b00010000#8 ++ d)
  | .lcol d => .bw16 (0b00100000#8 ++ d)
  | .lrow d => .bw16 (0b01000000#8 ++ d)
  | .invalid a d => .bw16 (a ++ d)
  | .zc m => .zm m
  | .start => .host ⟨0b0000, none⟩
  | .stop => .host ⟨0b0001, none⟩
  | .setLampNotify cb => .host ⟨0b0010, cb⟩
  | .setSolNotify cb => .host ⟨0b0011, cb⟩
  | .getLights => .host ⟨0b0100, none⟩
  | .getSolenoids => .host ⟨0b0101, none⟩
  | .getGi => .host ⟨0b0110, none⟩
  | .getStats => .host ⟨0b0111, none⟩
  | .resetOverflow => .host ⟨0b1000, none⟩

/-- The encoder writes the row's form. -/
def RowPattern.Statement (i : Instr) : Prop := encode Params.reference i = RowPattern.row i

namespace RowPattern

theorem triacs (d : Byte) : Statement (.triacs d) := rfl
theorem sol1 (d : Byte) : Statement (.sol1 d) := rfl
theorem sol2 (d : Byte) : Statement (.sol2 d) := rfl
theorem sol3 (d : Byte) : Statement (.sol3 d) := rfl
theorem sol4 (d : Byte) : Statement (.sol4 d) := rfl
theorem lcol (d : Byte) : Statement (.lcol d) := rfl
theorem lrow (d : Byte) : Statement (.lrow d) := rfl
theorem invalid (a d : Byte) : Statement (.invalid a d) := rfl
theorem zc (m : Marker) : Statement (.zc m) := rfl
theorem start : Statement .start := rfl
theorem stop : Statement .stop := rfl
theorem setLampNotify (cb : Option Callback) : Statement (.setLampNotify cb) := rfl
theorem setSolNotify (cb : Option Callback) : Statement (.setSolNotify cb) := rfl
theorem getLights : Statement .getLights := rfl
theorem getSolenoids : Statement .getSolenoids := rfl
theorem getGi : Statement .getGi := rfl
theorem getStats : Statement .getStats := rfl
theorem resetOverflow : Statement .resetOverflow := rfl

end RowPattern

end Sys2Proof.Laws
end

