-- ==== Sys2Proof/Laws/Reads.lean ====
section
/-! SUPPORT. What the single reads of `get_gi` and `get_stats` (R72) come to: when a call in progress is complete, and what it
returns then. -/

namespace Sys2Proof.Machine

/-! ### get_gi -/

/-- A call with a channel still to be read is not complete. -/
theorem allRead_eq_none {l : List (Option Byte)} {i : Nat} (h : l[i]? = some none) : allRead l = none := by
  induction l generalizing i with
  | nil => simp at h
  | cons x xs ih =>
    cases x with
    | none => rfl
    | some b =>
      cases i with
      | zero => simp at h
      | succ i => simp only [allRead, ih (by simpa using h)]

/-- A call with every channel read returns what it read, in channel order. -/
theorem allRead_eq_some {l : List (Option Byte)} (h : ∀ i : Nat, l[i]? ≠ some none) :
    ∃ bs, allRead l = some bs ∧ bs.map some = l := by
  induction l with
  | nil => exact ⟨[], rfl, rfl⟩
  | cons x xs ih =>
    obtain ⟨bs, h1, h2⟩ := ih fun i => by simpa using h (i + 1)
    cases x with
    | none => exact absurd (by simp) (h 0)
    | some b => exact ⟨b :: bs, by simp [allRead, h1], by simp [h2]⟩

/-! ### get_stats -/

/-- A field is lacking when the record has it and it is not read yet. -/
theorem lacks_iff (got : StatsPart) (p : Params) (f : StatField) :
    got.lacks p.diag f = true ↔ f ∈ statFields p ∧ got.taken f = none := by
  cases hd : p.diag <;> cases f <;>
    simp [StatsPart.lacks, statFields, hd, StatsPart.taken, Option.isNone_iff_eq_none]

/-- A read takes the field's value of its moment. -/
@[simp] theorem take_taken (got : StatsPart) (s : State) (f : StatField) :
    (got.take s f).taken f = some (statValue s f) := by
  cases f <;> simp [StatsPart.take, StatsPart.taken, statValue]

/-- A read keeps the other fields. -/
theorem take_taken_other (got : StatsPart) (s : State) {f g : StatField} (h : g ≠ f) :
    (got.take s f).taken g = got.taken g := by
  cases f <;> cases g <;> first | exact absurd rfl h | rfl

/-- A call with a field still to be read is not complete. -/
theorem done_eq_none (got : StatsPart) (p : Params) {g : StatField} (hg : g ∈ statFields p) (h : got.taken g = none) :
    got.done p.diag = none := by
  rcases got with ⟨a, b, c, d, e, f, i, j⟩
  cases hd : p.diag <;> cases g <;> simp [statFields, hd] at hg <;> simp [StatsPart.taken] at h <;> subst h <;>
    simp [StatsPart.done, StatsPart.diagDone]
  all_goals (repeat' split) <;> simp_all

/-- A call with every field read returns what it read, with the optional half exactly when `DIAG` is present. -/
theorem done_eq_some (got : StatsPart) (p : Params) (h : ∀ g ∈ statFields p, got.taken g ≠ none) :
    ∃ v : Stats, got.done p.diag = some v ∧ (∀ g ∈ statFields p, v.value g = got.taken g) ∧
      v.diag.isSome = p.diag := by
  rcases got with ⟨_ | a, _ | b, _ | c, _ | d, e, f, i, j⟩
  case some.some.some.some =>
    cases hd : p.diag
    · exact ⟨⟨a, b, c, d, none⟩, rfl, by simp [statFields, hd, Stats.value, StatsPart.taken], rfl⟩
    · simp only [statFields, hd, if_true] at h
      rcases e with _ | e
      · exact absurd rfl (h .rows (by simp))
      rcases f with _ | f
      · exact absurd rfl (h .cols (by simp))
      rcases i with _ | i
      · exact absurd rfl (h .zeroCrossings (by simp))
      rcases j with _ | j
      · exact absurd rfl (h .triacEvents (by simp))
      exact ⟨⟨a, b, c, d, some ⟨e, f, i, j⟩⟩, rfl, by simp [statFields, hd, Stats.value, StatsPart.taken], rfl⟩
  all_goals
    exfalso
    first
      | exact h .maxQueueDepth (by simp [statFields]) rfl
      | exact h .eventCount (by simp [statFields]) rfl
      | exact h .overflow (by simp [statFields]) rfl
      | exact h .addressErrors (by simp [statFields]) rfl

end Sys2Proof.Machine
end

