-- ==== Sys2Proof/Laws/Triac.lean ====
section
/-! SUPPORT. The correlator channel by channel: what the close, the rollover and the marker leave in each channel, and the
range of a level and of a fill value (R151 to R157). -/

namespace Sys2Proof.Machine

theorem level_le (p : Params) (d : Timestamp) : level p d ≤ p.lmax := by unfold level; omega

/-- Under the published range, a fill value is a level (R156, R157). -/
theorem fill_le {s : State} (h : ∀ k, (s.brightAt k).toNat ≤ s.params.lmax) (k : Nat) : s.fill k ≤ s.params.lmax := by
  unfold State.fill; split <;> [exact h k; omega; exact Nat.le_refl _]

@[simp] theorem halfCycleClose_acc_length (s : State) : (halfCycleClose s).acc.length = s.acc.length := by
  simp [halfCycleClose]

@[simp] theorem halfCycleClose_latched_length (s : State) : (halfCycleClose s).latched.length = s.latched.length := by
  simp [halfCycleClose]

@[simp] theorem halfCycleClose_latchedAt (s : State) (k : Nat) : (halfCycleClose s).latchedAt k = false := by
  simp only [halfCycleClose, State.latchedAt, List.getD_eq_getElem?_getD, List.getElem?_map]
  cases s.latched[k]? <;> rfl

theorem halfCycleClose_accAt (s : State) {k : Nat} (h : k < s.acc.length) :
    (halfCycleClose s).accAt k = if s.latchedAt k then s.accAt k else s.accAt k + s.fill k := by
  simp [halfCycleClose, State.accAt, List.getD_eq_getElem?_getD, h]

theorem accAt_of_length_le (s : State) {k : Nat} (h : s.acc.length ≤ k) : s.accAt k = 0 := by
  simp [State.accAt, List.getD_eq_getElem?_getD, h]

@[simp] theorem rollover_accAt (s : State) (k : Nat) : (rollover s).accAt k = 0 := by
  simp only [rollover, State.accAt, List.getD_eq_getElem?_getD, List.getElem?_map]
  cases s.acc[k]? <;> rfl

@[simp] theorem rollover_latchedAt (s : State) (k : Nat) : (rollover s).latchedAt k = false := by
  simp only [rollover, State.latchedAt, List.getD_eq_getElem?_getD, List.getElem?_map]
  cases s.latched[k]? <;> rfl

theorem rollover_brightAt (s : State) {k : Nat} (h : k < s.acc.length) :
    (rollover s).brightAt k = BitVec.ofNat 8 (s.accAt k >>> s.params.log2w) := by
  simp [rollover, State.brightAt, State.accAt, List.getD_eq_getElem?_getD, h]

/-- A marker ends the window, or is counted (R153). -/
theorem countMarker_cases (s : State) :
    (s.zcWin + 1 = s.params.w ∧ countMarker s = { rollover s with zcWin := 0 }) ∨
      (s.zcWin + 1 ≠ s.params.w ∧ countMarker s = { s with zcWin := s.zcWin + 1 }) := by
  unfold countMarker; split <;> simp_all

/-- The W of a valid set is not 0 (R7). -/
theorem Params_w_pos {p : Params} (h : p.Valid) : 0 < p.w := by
  rw [h.1]; exact Nat.two_pow_pos _

end Sys2Proof.Machine
end

