-- ==== Sys2Proof/Laws/Step.lean ====
section
/-! SUPPORT. What a step can do, said once: the decoder's turn phase by phase, and each scheduled action. -/

namespace Sys2Proof.Machine

/-- The outcome of what was fetched. -/
def Fetched.outcome : Fetched → Result
  | .run i t => exec i t
  | .done r => r

/-- An action that answers one state answers no other. -/
theorem next_eq_next {s t : State} : (Host.Outcome.next s : Result) = .next t ↔ t = s :=
  ⟨fun h => by cases h; rfl, fun h => by rw [h]⟩

theorem step_eq (s : State) : step s = (fetch s).outcome := by
  unfold step Fetched.outcome; cases fetch s <;> rfl

/-- On the decoder's turn a step is the decoder's phase step. -/
theorem step_decoder {s : State} (h : decoderTurn s = true) : step s = (decoderFetch (afterHead s)).outcome := by
  rw [step_eq, fetch]
  cases hs : s.script with
  | nil => simp only [afterHead, hs, List.tail_nil]; congr; rw [← hs]
  | cons e rest =>
    have : e = .decoder := by simpa [decoderTurn, hs] using h
    subst this
    simp [afterHead, hs, eventFetch]

/-- A scheduled action is taken in the state whose schedule has moved on. -/
theorem step_event {s : State} {e : Event} {rest : List Event} (h : s.script = e :: rest) :
    step s = (eventFetch e (afterHead s)).outcome := by
  simp [step_eq, fetch, h, afterHead]

/-- A run goes on from the state its first step answers. -/
theorem runSteps_next {s t : State} (h : step s = .next t) (n : Nat) : runSteps (n + 1) s = runSteps n t := by
  rw [runSteps, h]

/-- A run ends with the fault of its first step. -/
theorem runSteps_fault {s : State} {f : Fault} (h : step s = .fault f) (n : Nat) : runSteps (n + 1) s = .fault f := by
  rw [runSteps, h]

/-- A run ends with the refusal of its first step. -/
theorem runSteps_refused {s : State} {r : Refusal} (h : step s = .refused r) (n : Nat) :
    runSteps (n + 1) s = .refused r := by
  rw [runSteps, h]

/-- A function that takes one step and goes on is the host's run. -/
theorem core_run_unique (M : Host.Core) (f : Nat → M.State → Host.Outcome M.State M.Fault M.Refusal)
    (zero : ∀ s, f 0 s = .next s) (next : ∀ n s t, M.step s = .next t → f (n + 1) s = f n t)
    (fault : ∀ n s r, M.step s = .fault r → f (n + 1) s = .fault r)
    (refused : ∀ n s r, M.step s = .refused r → f (n + 1) s = .refused r) (n : Nat) (s : M.State) :
    f n s = M.run n s := by
  induction n generalizing s with
  | zero => exact zero s
  | succ n ih =>
    rw [Host.Core.run]
    cases h : M.step s with
    | next t => rw [next n s t h]; exact ih t
    | fault r => exact fault n s r h
    | refused r => exact refused n s r h

/-- A run of the model is a run of the host's machine. -/
theorem runSteps_eq_core_run (n : Nat) (s : State) : runSteps n s = Sys2Proof.core.run n s :=
  core_run_unique Sys2Proof.core runSteps (fun _ => rfl) (fun n _ _ h => runSteps_next h n)
    (fun n _ _ h => runSteps_fault h n) (fun n _ _ h => runSteps_refused h n) n s

/-- Who can issue what does not depend on the schedule. -/
theorem ready_afterHead (c : Ctx) (i : Instr) (s : State) : ready c i (afterHead s) = ready c i s := rfl

@[simp] theorem callOf_afterHead (c : Ctx) (s : State) : callOf c (afterHead s) = callOf c s := rfl

/-- A step is the decoder's, or an action of the schedule that is not the decoder's. -/
theorem step_cases (s : State) :
    (decoderTurn s = true ∧ step s = (decoderFetch (afterHead s)).outcome) ∨
      ∃ e rest, s.script = e :: rest ∧ e ≠ .decoder ∧ step s = (eventFetch e (afterHead s)).outcome := by
  cases hs : s.script with
  | nil =>
    have hd : decoderTurn s = true := by simp [decoderTurn, hs]
    exact .inl ⟨hd, step_decoder hd⟩
  | cons e rest =>
    by_cases he : e = .decoder
    · have hd : decoderTurn s = true := by simp [decoderTurn, hs, he]
      exact .inl ⟨hd, step_decoder hd⟩
    · exact .inr ⟨e, rest, rfl, he, step_event hs⟩

/-- The decoder's turn, phase by phase (R180 to R189). -/
theorem decoderFetch_cases {s t : State} (h : (decoderFetch s).outcome = .next t) :
    ((s.ph = .stopped ∨ s.ph = .cbLamp ∨ s.ph = .cbSol) ∧ t = s) ∨
      (s.ph = .check ∧ t = checkStep s) ∨
      (s.ph = .zcdrain ∧ s.zq = [] ∧ t = goTo .poll s) ∨
      (∃ m rest, s.ph = .zcdrain ∧ s.zq = m :: rest ∧ execZc m { s with zq := rest } = .next t) ∨
      (s.ph = .poll ∧ t = pollStep s) ∨
      (s.ph = .dispatch ∧ exec (decodeWord s.params s.cur) s = .next t) ∨
      (s.ph = .notifyLamp ∧ t = notifyLampStep s) ∨
      (s.ph = .notifySol ∧ t = notifySolStep s) := by
  unfold decoderFetch at h
  cases hp : s.ph <;> simp only [hp] at h
  case zcdrain =>
    cases hz : s.zq with
    | nil => simp_all [Fetched.outcome]
    | cons m rest => simp_all [Fetched.outcome, decodeMarker, exec]
  all_goals simp_all [Fetched.outcome]

/-- A host call that is answered runs the operation its number names, by a context that may issue it (R105, R209). -/
theorem hostFetch_cases {c : Ctx} {call : HostCall} {s t : State} (h : (hostFetch c call s).outcome = .next t) :
    ∃ i, decodeCall call = .ok i ∧ ready c i s = true ∧ exec i { s with caller := c } = .next t := by
  unfold hostFetch at h
  cases hd : decodeCall call with
  | error r => simp [hd, Fetched.outcome] at h
  | ok i =>
    by_cases hr : ready c i s = true
    · exact ⟨i, rfl, hr, by simpa [hd, hr, Fetched.outcome] using h⟩
    · simp [hd, hr, Fetched.outcome] at h

/-- A host call names one of the nine operations (R105). -/
theorem decodeCall_cases {call : HostCall} {i : Instr} (h : decodeCall call = .ok i) :
    i = .start ∨ i = .stop ∨ i = .setLampNotify call.arg ∨ i = .setSolNotify call.arg ∨ i = .getLights ∨
      i = .getSolenoids ∨ i = .getGi ∨ i = .getStats ∨ i = .resetOverflow := by
  unfold decodeCall withoutOperand at h
  split at h <;> (try split at h) <;> simp_all [eq_comm]

/-- A bus word is one of the seven targets' words or an `INVALID` word (R94, R103). -/
theorem decodeWord_cases (p : Params) (w : BusWord) :
    (∃ d, decodeWord p w = .triacs d) ∨ (∃ d, decodeWord p w = .sol1 d) ∨ (∃ d, decodeWord p w = .sol2 d) ∨
      (∃ d, decodeWord p w = .sol3 d) ∨ (∃ d, decodeWord p w = .sol4 d) ∨ (∃ d, decodeWord p w = .lcol d) ∨
      (∃ d, decodeWord p w = .lrow d) ∨ (∃ a d, decodeWord p w = .invalid a d) := by
  unfold decodeWord; split <;> simp

theorem stopPolled_cases {c : Ctx} {s t : State} (h : stopPolled c s = .next t) :
    callOf c s = some .stopping ∧
      ((s.running = true ∧ t = s) ∨ (s.running = false ∧ t = endCall c { s with samplerActive := false })) := by
  unfold stopPolled at h
  split at h
  · split at h <;> simp_all
  · cases h

/-- A single-channel read keeps the call with one more channel, or returns it (R72, R207). -/
theorem giRead_cases {c : Ctx} {k : Nat} {s t : State} (h : giRead c k s = .next t) :
    ∃ got, callOf c s = some (.gi got) ∧ got[k]? = some none ∧
      ((∃ bytes, allRead (got.set k (some (s.brightAt k))) = some bytes ∧ t = emit (.gi c bytes) (endCall c s)) ∨
        (allRead (got.set k (some (s.brightAt k))) = none ∧
          t = setCall c (.gi (got.set k (some (s.brightAt k)))) s)) := by
  unfold giRead at h
  split at h
  · next got hg =>
    split at h
    · next hk => split at h <;> simp_all
    · cases h
  all_goals cases h

/-- A single-field read keeps the call with one more field, or returns it (R72, R208). -/
theorem statRead_cases {c : Ctx} {f : StatField} {s t : State} (h : statRead c f s = .next t) :
    ∃ got, callOf c s = some (.stats got) ∧ got.lacks s.params.diag f = true ∧
      ((∃ v, (got.take s f).done s.params.diag = some v ∧ t = emit (.stats c v) (endCall c s)) ∨
        ((got.take s f).done s.params.diag = none ∧ t = setCall c (.stats (got.take s f)) s)) := by
  unfold statRead at h
  split at h
  · next got hg =>
    split at h
    · next hk => split at h <;> simp_all
    · cases h
  all_goals cases h

theorem getterEntered_cases {c : Ctx} {g : Group} {s t : State} (h : getterEntered c g s = .next t) :
    g ≠ .gi ∧ ((lockOf s g = none ∧ t = setLock g (some c) s) ∨ (lockOf s g ≠ none ∧ t = s)) := by
  unfold getterEntered at h
  split at h
  · split at h <;> simp_all
  · cases h

theorem callbackReturn_cases {s t : State} (h : callbackReturn s = .next t) :
    (s.ph = .cbLamp ∧ t = goTo .notifySol s) ∨ (s.ph = .cbSol ∧ t = goTo .check s) := by
  unfold callbackReturn at h
  split at h
  · split at h
    · next hc _ => cases h; exact callbackReturned_cases hc
    · cases h
  · cases h

theorem construct_cases {p : Params} {s t : State} (h : construct p s = .next t) :
    p.Valid ∧ t = State.init p s.clock s.script := by
  unfold construct at h
  split at h
  · exact ⟨‹_›, next_eq_next.1 h⟩
  · cases h

/-! ### Every way a step can go

The inversion of `step`, as two relations: the decoder's moves and the moves of the other agents. Both speak of the state
whose schedule has moved on (`afterHead`). -/

/-- The decoder's moves (R180 to R189), from the state in which it acts. -/
inductive DecoderMove (s : State) : State → Prop where
  | rests (hp : s.ph = .stopped ∨ s.ph = .cbLamp ∨ s.ph = .cbSol) : DecoderMove s s
  | stops (hp : s.ph = .check) (he : s.enable = false) : DecoderMove s { s with running := false, ph := .stopped }
  | begins (hp : s.ph = .check) (he : s.enable = true) : DecoderMove s { s with ph := .zcdrain }
  | drained (hp : s.ph = .zcdrain) (hz : s.zq = []) : DecoderMove s { s with ph := .poll }
  | marker (m : Marker) (rest : List Marker) (hp : s.ph = .zcdrain) (hz : s.zq = m :: rest) :
      DecoderMove s (goTo .zcdrain (countMarker { halfCycleClose { s with zq := rest } with
        zcDetected := diagBump s.params s.zcDetected
        zcTime := s.now }))
  | pollEmpty (hp : s.ph = .poll) (hq : s.dq = []) : DecoderMove s { s with ph := .check }
  | polled (w : BusWord) (rest : List BusWord) (hp : s.ph = .poll) (hq : s.dq = w :: rest) :
      DecoderMove s { s with
        maxDepth := max s.maxDepth s.dq.length
        overflowFlag := s.overflowFlag || decide (s.dq.length = s.params.qcap)
        cur := w
        dq := rest
        eventCount := bump s.params s.eventCount
        ph := .dispatch }
  | triacs (d : Byte) (hp : s.ph = .dispatch) (hi : decodeWord s.params s.cur = .triacs d) :
      DecoderMove s { s with
        triacDetected := diagBump s.params s.triacDetected
        acc := s.acc.mapIdx fun k a => if s.fires d k then a + level s.params s.delay else a
        latched := s.latched.mapIdx fun k b => b || s.fires d k
        ph := .notifyLamp }
  | solEqual (i : Fin 4) (d : Byte) (hp : s.ph = .dispatch) (hi : decodeWord s.params s.cur = solWord i d)
      (hd : s.sol[i] = d) : DecoderMove s { s with ph := .notifyLamp }
  | solStored (i : Fin 4) (d : Byte) (hp : s.ph = .dispatch) (hi : decodeWord s.params s.cur = solWord i d)
      (hd : s.sol[i] ≠ d) (hl : s.solLock = none) :
      DecoderMove s { s with sol := s.sol.set i d, solChanged := true, ph := .notifyLamp }
  | solWaits (i : Fin 4) (d : Byte) (hp : s.ph = .dispatch) (hi : decodeWord s.params s.cur = solWord i d)
      (hd : s.sol[i] ≠ d) (hl : s.solLock ≠ none) : DecoderMove s s
  | lcol (d : Byte) (hp : s.ph = .dispatch) (hi : decodeWord s.params s.cur = .lcol d) :
      DecoderMove s { s with
        colsDetected := diagBump s.params s.colsDetected
        pendingCol := if d = 0 then s.pendingCol else colLut d
        ph := .notifyLamp }
  | lrowDropped (d : Byte) (hp : s.ph = .dispatch) (hi : decodeWord s.params s.cur = .lrow d)
      (hs : lrowStore d s = none) :
      DecoderMove s { s with
        rowsDetected := diagBump s.params s.rowsDetected, pendingCol := none, ph := .notifyLamp }
  | lrowStored (c : Fin 8) (d : Byte) (hp : s.ph = .dispatch) (hi : decodeWord s.params s.cur = .lrow d)
      (hc : s.pendingCol = some c) (hd : s.lamp[c] ≠ d) (hl : s.lampLock = none) :
      DecoderMove s { s with
        lamp := s.lamp.set c d
        lightsChanged := true
        rowsDetected := diagBump s.params s.rowsDetected
        pendingCol := none
        ph := .notifyLamp }
  | lrowWaits (c : Fin 8) (d : Byte) (hp : s.ph = .dispatch) (hi : decodeWord s.params s.cur = .lrow d)
      (hc : s.pendingCol = some c) (hd : s.lamp[c] ≠ d) (hl : s.lampLock ≠ none) : DecoderMove s s
  | invalid (a d : Byte) (hp : s.ph = .dispatch) (hi : decodeWord s.params s.cur = .invalid a d) :
      DecoderMove s { s with
        addressErrorCount := bump s.params s.addressErrorCount, ph := .notifyLamp }
  | noLampChange (hp : s.ph = .notifyLamp) (hl : s.lightsChanged = false) : DecoderMove s { s with ph := .notifySol }
  | lampCounted (hp : s.ph = .notifyLamp) (hl : s.lightsChanged = true) (hc : s.lampCb = none) :
      DecoderMove s { s with
        eventCount := bump s.params s.eventCount, lightsChanged := false, ph := .notifySol }
  | lampCalled (cb : Callback) (hp : s.ph = .notifyLamp) (hl : s.lightsChanged = true) (hc : s.lampCb = some cb) :
      DecoderMove s { s with
        eventCount := bump s.params s.eventCount, lightsChanged := false, ph := .cbLamp, out := .lampCall cb :: s.out }
  | noSolChange (hp : s.ph = .notifySol) (hl : s.solChanged = false) : DecoderMove s { s with ph := .check }
  | solCounted (hp : s.ph = .notifySol) (hl : s.solChanged = true) (hc : s.solCb = none) :
      DecoderMove s { s with
        eventCount := bump s.params s.eventCount, solChanged := false, ph := .check }
  | solCalled (cb : Callback) (hp : s.ph = .notifySol) (hl : s.solChanged = true) (hc : s.solCb = some cb) :
      DecoderMove s { s with
        eventCount := bump s.params s.eventCount, solChanged := false, ph := .cbSol, out := .solCall cb :: s.out }

/-- The moves of the other agents, by the schedule entry, from the state in which they act. -/
inductive EventMove (s : State) : Event → State → Prop where
  | strobe (raw : BusWord) (ha : s.samplerActive = true) :
      EventMove s (.strobe raw) { s with dq := pushWord s.params (~~~raw) s.dq }
  | strobeUnseen (raw : BusWord) (ha : s.samplerActive = false) : EventMove s (.strobe raw) s
  | zeroCross (m : Marker) (ha : s.samplerActive = true) :
      EventMove s (.zeroCross m) { s with zq := pushMarker s.params m s.zq }
  | zeroCrossUnseen (m : Marker) (ha : s.samplerActive = false) : EventMove s (.zeroCross m) s
  | tick (us : Nat) : EventMove s (.tick us) { s with clock := s.clock + us }
  | start (c : Ctx) (call : HostCall) (hc : c ≠ .callback) (hd : decodeCall call = .ok .start)
      (hr : s.running = false) (ha : s.samplerActive = false) :
      EventMove s (.host c call) (started { s with caller := c })
  | stopIdle (c : Ctx) (call : HostCall) (hc : c ≠ .callback) (hd : decodeCall call = .ok .stop) (hr : s.running = false) :
      EventMove s (.host c call) { s with enable := false, samplerActive := false, caller := c }
  | stopWaits (c : Ctx) (call : HostCall) (hc : c ≠ .callback) (hd : decodeCall call = .ok .stop) (hr : s.running = true) :
      EventMove s (.host c call) (setCall c .stopping { s with enable := false, caller := c })
  | setLampNotify (c : Ctx) (call : HostCall) (cb : Option Callback) (hd : decodeCall call = .ok (.setLampNotify cb)) :
      EventMove s (.host c call) { s with lampCb := cb, caller := c }
  | setSolNotify (c : Ctx) (call : HostCall) (cb : Option Callback) (hd : decodeCall call = .ok (.setSolNotify cb)) :
      EventMove s (.host c call) { s with solCb := cb, caller := c }
  | getLights (c : Ctx) (call : HostCall) (hd : decodeCall call = .ok .getLights)
      (hl : s.lampLock = none ∨ s.lampLock = some c) :
      EventMove s (.host c call)
        { s with lampLock := none, out := .lights c (packLights s.lamp) :: s.out, caller := c }
  | getSolenoids (c : Ctx) (call : HostCall) (hd : decodeCall call = .ok .getSolenoids)
      (hl : s.solLock = none ∨ s.solLock = some c) :
      EventMove s (.host c call)
        { s with solLock := none, out := .solenoids c (packSolenoids s.sol) :: s.out, caller := c }
  | getterWaits (c : Ctx) (call : HostCall) (hd : decodeCall call = .ok .getLights ∨ decodeCall call = .ok .getSolenoids) :
      EventMove s (.host c call) { s with caller := c }
  | getGi (c : Ctx) (call : HostCall) (hd : decodeCall call = .ok .getGi) :
      EventMove s (.host c call) (setCall c (.gi (List.replicate s.params.nch none)) { s with caller := c })
  | getStats (c : Ctx) (call : HostCall) (hd : decodeCall call = .ok .getStats) :
      EventMove s (.host c call) (setCall c (.stats {}) { s with caller := c })
  | resetOverflow (c : Ctx) (call : HostCall) (hd : decodeCall call = .ok .resetOverflow) :
      EventMove s (.host c call) { s with overflowFlag := false, caller := c }
  | stopPollWaits (c : Ctx) (hc : callOf c s = some .stopping) (hr : s.running = true) : EventMove s (.stopPoll c) s
  | stopReturns (c : Ctx) (hc : callOf c s = some .stopping) (hr : s.running = false) :
      EventMove s (.stopPoll c) (endCall c { s with samplerActive := false })
  | giRead (c : Ctx) (k : Nat) (got : List (Option Byte)) : EventMove s (.readGi c k) (setCall c (.gi got) s)
  | giReturns (c : Ctx) (k : Nat) (bytes : List Byte) : EventMove s (.readGi c k) (emit (.gi c bytes) (endCall c s))
  | statRead (c : Ctx) (f : StatField) (got : StatsPart) : EventMove s (.readStat c f) (setCall c (.stats got) s)
  | statReturns (c : Ctx) (f : StatField) (v : Stats) : EventMove s (.readStat c f) (emit (.stats c v) (endCall c s))
  | entersGetter (c : Ctx) (g : Group) (hg : g ≠ .gi) (hl : lockOf s g = none) :
      EventMove s (.enterGetter c g) (setLock g (some c) s)
  | entryWaits (c : Ctx) (g : Group) : EventMove s (.enterGetter c g) s
  | lampReturned (hp : s.ph = .cbLamp) : EventMove s .callbackReturn { s with ph := .notifySol }
  | solReturned (hp : s.ph = .cbSol) : EventMove s .callbackReturn { s with ph := .check }
  | constructed (p : Params) (hv : p.Valid) : EventMove s (.construct p) (State.init p s.clock s.script)

theorem exec_solWord (i : Fin 4) (d : Byte) (s : State) : exec (solWord i d) s = routeSol i d s := by
  match i with
  | 0 => rfl
  | 1 => rfl
  | 2 => rfl
  | 3 => rfl

/-- The four solenoid words are different instructions, each with its own byte. -/
theorem solWord_inj {i j : Fin 4} {d e : Byte} (h : solWord i d = solWord j e) : i = j ∧ d = e := by
  match i, j with
  | 0, 0 | 1, 1 | 2, 2 | 3, 3 => exact ⟨rfl, by simpa [solWord] using h⟩
  | 0, 1 | 0, 2 | 0, 3 | 1, 0 | 1, 2 | 1, 3 | 2, 0 | 2, 1 | 2, 3 | 3, 0 | 3, 1 | 3, 2 => simp [solWord] at h

/-- No solenoid word is an `LROW`. -/
theorem lrow_ne_solWord {i : Fin 4} {d e : Byte} : Instr.lrow e ≠ solWord i d := by
  match i with
  | 0 | 1 | 2 | 3 => simp [solWord]

theorem solWord_move {i : Fin 4} {d : Byte} {s t : State} (hp : s.ph = .dispatch)
    (hi : decodeWord s.params s.cur = solWord i d) (h : exec (solWord i d) s = .next t) : DecoderMove s t := by
  rw [exec_solWord] at h
  rcases routeSol_cases i d s with ⟨hd, he⟩ | ⟨hd, hl, he⟩ | ⟨hd, hl, he⟩ <;>
    rw [he, next_eq_next] at h <;> subst h
  · exact .solEqual i d hp hi hd
  · simpa [writeByte, goTo, setIfInBounds_eq_set] using DecoderMove.solStored i d hp hi hd hl
  · exact .solWaits i d hp hi hd hl

theorem lrow_move {d : Byte} {s t : State} (hp : s.ph = .dispatch) (hi : decodeWord s.params s.cur = .lrow d)
    (h : exec (.lrow d) s = .next t) : DecoderMove s t := by
  rcases execLrow_cases d s with ⟨hs, he⟩ | ⟨c, hs, hl, he⟩ | ⟨c, hs, hl, he⟩ <;>
    rw [exec, he, next_eq_next] at h <;> subst h
  · exact .lrowDropped d hp hi hs
  · have := lrowStore_eq_some.1 hs
    simpa [writeByte, rowTaken, goTo, setIfInBounds_eq_set] using DecoderMove.lrowStored c d hp hi this.1 this.2 hl
  · have := lrowStore_eq_some.1 hs
    exact .lrowWaits c d hp hi this.1 this.2 hl

theorem poll_move {s : State} (hp : s.ph = .poll) : DecoderMove s (pollStep s) := by
  unfold pollStep
  split
  · exact .pollEmpty hp ‹_›
  · next w rest hq =>
    have := DecoderMove.polled w rest hp hq
    unfold recordDepth
    split
    · next he => simpa [goTo, countEvent, raiseBusOverflow, he] using this
    · next he => simpa [goTo, countEvent, he] using this

theorem notify_move {s : State} :
    (s.ph = .notifyLamp → DecoderMove s (notifyLampStep s)) ∧ (s.ph = .notifySol → DecoderMove s (notifySolStep s)) := by
  refine ⟨fun hp => ?_, fun hp => ?_⟩
  · unfold notifyLampStep notify
    split
    · next hl =>
      split
      · exact .lampCalled _ hp hl ‹_›
      · exact .lampCounted hp hl ‹_›
    · next hl => exact .noLampChange hp (by simpa using hl)
  · unfold notifySolStep notify
    split
    · next hl =>
      split
      · exact .solCalled _ hp hl ‹_›
      · exact .solCounted hp hl ‹_›
    · next hl => exact .noSolChange hp (by simpa using hl)

/-- The decoder's phase step is one of its moves. -/
theorem decoder_move {s t : State} (h : (decoderFetch s).outcome = .next t) : DecoderMove s t := by
  rcases decoderFetch_cases h with ⟨hp, rfl⟩ | ⟨hp, rfl⟩ | ⟨hp, hz, rfl⟩ | ⟨m, rest, hp, hz, h⟩ | ⟨hp, rfl⟩ | ⟨hp, h⟩ |
    ⟨hp, rfl⟩ | ⟨hp, rfl⟩
  · exact .rests hp
  · unfold checkStep
    split
    · exact .begins hp ‹_›
    · next he => exact .stops hp (by simpa using he)
  · exact .drained hp hz
  · rw [execZc, next_eq_next] at h
    subst h
    exact .marker m rest hp hz
  · exact poll_move hp
  · rcases decodeWord_cases s.params s.cur with ⟨d, hi⟩ | ⟨d, hi⟩ | ⟨d, hi⟩ | ⟨d, hi⟩ | ⟨d, hi⟩ | ⟨d, hi⟩ | ⟨d, hi⟩ |
      ⟨a, d, hi⟩ <;> rw [hi] at h
    · rw [exec, execTriacs, next_eq_next] at h; subst h; exact .triacs d hp hi
    · exact solWord_move (i := 0) hp hi h
    · exact solWord_move (i := 1) hp hi h
    · exact solWord_move (i := 2) hp hi h
    · exact solWord_move (i := 3) hp hi h
    · rw [exec, execLcol, next_eq_next] at h; subst h; exact .lcol d hp hi
    · exact lrow_move hp hi h
    · rw [exec, execInvalid, next_eq_next] at h; subst h; exact .invalid a d hp hi
  · exact notify_move.1 hp
  · exact notify_move.2 hp

/-- A host call that is answered is one of the host's moves. -/
theorem host_move {c : Ctx} {call : HostCall} {s t : State} (h : (hostFetch c call s).outcome = .next t) :
    EventMove s (.host c call) t := by
  obtain ⟨i, hd, _, h⟩ := hostFetch_cases h
  rcases decodeCall_cases hd with rfl | rfl | rfl | rfl | rfl | rfl | rfl | rfl | rfl <;> simp only [exec] at h
  · obtain ⟨hc, h⟩ := unlessCallback_next h
    split at h
    · cases h
    · split at h
      · cases h
      · next hr =>
        rw [next_eq_next] at h; subst h
        have hr' : s.running = false ∧ s.samplerActive = false := by simpa using hr
        exact .start c call hc hd hr'.1 hr'.2
  · obtain ⟨hc, h⟩ := unlessCallback_next h
    split at h
    · cases h
    · split at h <;> rename_i hr <;> rw [next_eq_next] at h <;> subst h
      · exact .stopWaits c call hc hd hr
      · exact .stopIdle c call hc hd (by simpa using hr)
  · obtain ⟨_, h⟩ := unlessCallback_next h
    rw [next_eq_next] at h; subst h; exact .setLampNotify c call _ hd
  · obtain ⟨_, h⟩ := unlessCallback_next h
    rw [next_eq_next] at h; subst h; exact .setSolNotify c call _ hd
  · unfold execGetLights at h
    split at h <;> rw [next_eq_next] at h <;> subst h
    · exact .getterWaits c call (.inl hd)
    · next u hu =>
      rcases lockedRead_cases hu with ⟨hl, rfl⟩ | ⟨hl, rfl⟩
      · have hl' : s.lampLock = none := hl
        simpa [emit, hl'] using EventMove.getLights (s := s) c call hd (.inl hl')
      · exact .getLights (s := s) c call hd (.inr hl)
  · unfold execGetSolenoids at h
    split at h <;> rw [next_eq_next] at h <;> subst h
    · exact .getterWaits c call (.inr hd)
    · next u hu =>
      rcases lockedRead_cases hu with ⟨hl, rfl⟩ | ⟨hl, rfl⟩
      · have hl' : s.solLock = none := hl
        simpa [emit, hl'] using EventMove.getSolenoids (s := s) c call hd (.inl hl')
      · exact .getSolenoids (s := s) c call hd (.inr hl)
  · rw [execGetGi, next_eq_next] at h; subst h; exact .getGi c call hd
  · rw [execGetStats, next_eq_next] at h; subst h; exact .getStats c call hd
  · obtain ⟨_, h⟩ := unlessCallback_next h
    rw [next_eq_next] at h; subst h; exact .resetOverflow c call hd

/-- An action of another agent is one of its moves. -/
theorem event_move {e : Event} {s t : State} (he : e ≠ .decoder) (h : (eventFetch e s).outcome = .next t) :
    EventMove s e t := by
  cases e with
  | decoder => exact absurd rfl he
  | strobe raw =>
    have h : t = strobed raw s := next_eq_next.1 h
    subst h; unfold strobed
    split
    · exact .strobe raw ‹_›
    · next ha => exact .strobeUnseen raw (by simpa using ha)
  | zeroCross m =>
    have h : t = zeroCrossed m s := next_eq_next.1 h
    subst h; unfold zeroCrossed
    split
    · exact .zeroCross m ‹_›
    · next ha => exact .zeroCrossUnseen m (by simpa using ha)
  | tick us =>
    have h : t = ticked us s := next_eq_next.1 h
    subst h; exact .tick us
  | host c call => exact host_move h
  | stopPoll c =>
    obtain ⟨hc, ⟨hr, rfl⟩ | ⟨hr, rfl⟩⟩ := stopPolled_cases h
    · exact .stopPollWaits c hc hr
    · exact .stopReturns c hc hr
  | readGi c k =>
    obtain ⟨got, _, _, ⟨bytes, _, rfl⟩ | ⟨_, rfl⟩⟩ := giRead_cases h
    · exact .giReturns c k bytes
    · exact .giRead c k _
  | readStat c f =>
    obtain ⟨got, _, _, ⟨v, _, rfl⟩ | ⟨_, rfl⟩⟩ := statRead_cases h
    · exact .statReturns c f v
    · exact .statRead c f _
  | enterGetter c g =>
    obtain ⟨hg, ⟨hl, rfl⟩ | ⟨_, rfl⟩⟩ := getterEntered_cases h
    · exact .entersGetter c g hg hl
    · exact .entryWaits c g
  | callbackReturn =>
    rcases callbackReturn_cases h with ⟨hp, rfl⟩ | ⟨hp, rfl⟩
    · exact .lampReturned hp
    · exact .solReturned hp
  | construct p =>
    obtain ⟨hv, rfl⟩ := construct_cases h
    exact .constructed p hv

/-- Everything a step can do: a move of the decoder on its turn, or the scheduled agent's move. -/
theorem step_move {s t : State} (h : step s = .next t) :
    (decoderTurn s = true ∧ DecoderMove (afterHead s) t) ∨
      ∃ e rest, s.script = e :: rest ∧ e ≠ .decoder ∧ EventMove (afterHead s) e t := by
  rcases step_cases s with ⟨hd, hs⟩ | ⟨e, rest, hr, he, hs⟩ <;> rw [hs] at h
  · exact .inl ⟨hd, decoder_move h⟩
  · exact .inr ⟨e, rest, hr, he, event_move he h⟩

end Sys2Proof.Machine
end

