-- ==== Sys2Proof/Tests/Slice0.lean ====
section
/-! SUPPORT. The model's own tests: ill-formed terms and parameter sets that the checks refuse, words written out from the
spec's encodings, one-step vectors of 95_test_vectors.md, and a witness for the hypotheses of every statement. -/

open Sys2Proof Sys2Proof.Machine

namespace Sys2Proof.Tests

/-! ### Small states -/

/-- The reference block just after `start`. -/
def up : State := started State.reset

/-- The running block with an empty schedule at phase P. -/
def upAt (P : Phase) : State := { up with ph := P }

/-- Reference parameters with another `UNFIRED`. -/
def withUnfired (u : Unfired) : Params := { Params.reference with unfired := u }

/-- The reference parameters of a revision whose address bit 7 is the zero-crossing indicator (R95). -/
def zcBit7 : Params := { Params.reference with zcAddrBit := some 7 }

/-- A parameter set whose table names no target. -/
def noTargets : Params := { Params.reference with addrLut := [] }

/-- One field of the state an outcome answers. -/
def field {α : Type} (f : State → α) (r : Result) : Option α := (nextOf r).map f

/-- A byte group's register at an index, as the getters read it. -/
def byteOf (g : Group) (i : Nat) (s : State) : Option Byte := readByte s g i

/-! ### WellFormed: one ill-formed term for each check -/

theorem test_wf_triacs_needs_a_code : (Instr.triacs 1).wf noTargets = false := by decide
theorem test_wf_sol1_needs_a_code : (Instr.sol1 1).wf noTargets = false := by decide
theorem test_wf_sol2_needs_a_code : (Instr.sol2 1).wf noTargets = false := by decide
theorem test_wf_sol3_needs_a_code : (Instr.sol3 1).wf noTargets = false := by decide
theorem test_wf_sol4_needs_a_code : (Instr.sol4 1).wf noTargets = false := by decide
theorem test_wf_lcol_needs_a_code : (Instr.lcol 1).wf noTargets = false := by decide
theorem test_wf_lrow_needs_a_code : (Instr.lrow 1).wf noTargets = false := by decide
/-- A code that the mask of R95 destroys is no code. -/
theorem test_wf_code_under_the_mask :
    (Instr.lcol 1).wf { Params.reference with zcAddrBit := some 5 } = false := by decide
/-- Address 0x20 selects `LCOL`, so it is no `INVALID` word. -/
theorem test_wf_invalid_with_a_target : (Instr.invalid 0x20 0).wf Params.reference = false := by decide
/-- 2.1: 0xA0 is `INVALID` without the indicator bit and `LCOL` with it. -/
theorem test_wf_invalid_under_the_mask :
    (Instr.invalid 0xA0 4).wf Params.reference = true ∧ (Instr.invalid 0xA0 4).wf zcBit7 = false := by decide

/-! ### Parameter sets: one invalid set for each condition of R7 -/

theorem test_valid_reference : Params.reference.Valid := by decide
theorem test_valid_zcBit7 : zcBit7.Valid := by decide
/-- H9. -/
theorem test_valid_window : ¬({ Params.reference with w := 6 } : Params).Valid := by decide
theorem test_valid_qcap : ¬({ Params.reference with qcap := 0 } : Params).Valid := by decide
theorem test_valid_zqcap : ¬({ Params.reference with zqcap := 0 } : Params).Valid := by decide
theorem test_valid_no_channel : ¬({ Params.reference with nch := 0, chBit := [] } : Params).Valid := by decide
theorem test_valid_nine_channels :
    ¬({ Params.reference with nch := 9, chBit := [0, 1, 2, 3, 4, 5, 6, 7, 8] } : Params).Valid := by decide
theorem test_valid_channel_count : ¬({ Params.reference with chBit := [0, 1, 2, 3] } : Params).Valid := by decide
theorem test_valid_channels_distinct : ¬({ Params.reference with chBit := [0, 1, 2, 3, 3] } : Params).Valid := by decide
theorem test_valid_channel_bit : ¬({ Params.reference with chBit := [0, 1, 2, 3, 8] } : Params).Valid := by decide
theorem test_valid_no_level : ¬({ Params.reference with lmax := 0, stepT := [] } : Params).Valid := by decide
theorem test_valid_level_fits_a_byte : ¬({ Params.reference with lmax := 256 } : Params).Valid := by decide
theorem test_valid_threshold_count : ¬({ Params.reference with lmax := 9 } : Params).Valid := by decide
theorem test_valid_threshold_width :
    ¬({ Params.reference with lmax := 1, stepT := [4294967296] } : Params).Valid := by decide
theorem test_valid_thresholds_increase :
    ¬({ Params.reference with lmax := 2, stepT := [1000, 1000] } : Params).Valid := by decide
theorem test_valid_address_zero : ¬({ Params.reference with addrLut := [(0, .sol1)] } : Params).Valid := by decide
theorem test_valid_indicator_bit : ¬({ Params.reference with zcAddrBit := some 0 } : Params).Valid := by decide

/-! ### Decoding: words of R108 and section 2.1, written out from R90 and R93 -/

theorem test_decode_triacs : decodeTableWord 16 0x0105 = some (.triacs 0x05) := by decide
theorem test_decode_sol1 : decodeTableWord 16 0x0200 = some (.sol1 0x00) := by decide
theorem test_decode_sol2 : decodeTableWord 16 0x0401 = some (.sol2 0x01) := by decide
theorem test_decode_sol3 : decodeTableWord 16 0x0880 = some (.sol3 0x80) := by decide
theorem test_decode_sol4 : decodeTableWord 16 0x10FF = some (.sol4 0xFF) := by decide
theorem test_decode_lcol : decodeTableWord 16 0x2004 = some (.lcol 0x04) := by decide
theorem test_decode_lrow : decodeTableWord 16 0x40AA = some (.lrow 0xAA) := by decide
theorem test_decode_invalid : decodeTableWord 16 0x6011 = some (.invalid 0x60 0x11) := by decide
theorem test_decode_indicator : decode zcBit7 (.bw16 0xA004) = .ok (.lcol 0x04) := by decide
theorem test_decode_zc : decodeTableWord 1 0 = some (.zc 0) := by decide
/-- R105's numbering, operation by operation. -/
theorem test_decode_operations : (List.range 10).map (decodeTableWord 4) =
    [some .start, some .stop, some (.setLampNotify none), some (.setSolNotify none), some .getLights, some .getSolenoids,
      some .getGi, some .getStats, some .resetOverflow, none] := by decide
theorem test_decode_callback_operand : decodeCall ⟨2, some 7⟩ = .ok (.setLampNotify (some 7)) := by decide
/-- `COL_LUT`, 2.1. -/
theorem test_colLut : [0x01, 0x02, 0x04, 0x08, 0x10, 0x20, 0x40, 0x80, 0x00, 0x03, 0x06, 0x81, 0xFF].map colLut =
    [some 0, some 1, some 2, some 3, some 4, some 5, some 6, some 7, none, none, none, none, none] := by decide
/-- R108: line levels 0xDFFB are the word 0x2004. -/
theorem test_sampler_inverts_once : (strobed 0xDFFB up).dq = [0x2004] := by decide

/-! ### withFetchWord: the very next step after reset runs the word -/

theorem test_fetch_word : field State.pendingCol (step (State.reset.withFetchWord 16 0x2004)) = some (some 2) := by decide
theorem test_fetch_marker : field State.zcDetected (step (State.reset.withFetchWord 1 1)) = some 1 := by decide
theorem test_fetch_call : field State.ph (step (State.reset.withFetchWord 4 0)) = some .check := by decide

/-! ### Lamp family (2.2) -/

/-- L1: a zero column word keeps the selection. -/
theorem test_lcol_zero_keeps :
    field State.pendingCol (exec (.lcol 0) { up with pendingCol := some 2 }) = some (some 2) := by decide
/-- L2: two bits invalidate it. -/
theorem test_lcol_two_bits :
    field State.pendingCol (exec (.lcol 0x06) { up with pendingCol := some 2 }) = some none := by decide
/-- E1 row 2: the byte is stored and the latch cleared. -/
theorem test_lrow_stores : field (fun t => (byteOf .lamp 2 t, t.pendingCol, t.lightsChanged))
    (exec (.lrow 0xAA) { up with pendingCol := some 2 }) = some (some 0xAA, none, true) := by decide
/-- L8: an equal byte stores nothing and uses up the selection. -/
theorem test_lrow_equal : field (fun t => (byteOf .lamp 0 t, t.pendingCol, t.lightsChanged))
    (exec (.lrow 0x00) { up with pendingCol := some 0 }) = some (some 0, none, false) := by decide

/-! ### Solenoid family (2.3) -/

theorem test_sol1 : field (fun t => (packSolenoids t.sol, t.solChanged)) (exec (.sol1 0xFF) up) =
    some (0x000000FF, true) := by decide
/-- S4: an equal byte changes nothing. -/
theorem test_sol1_equal : field (fun t => (packSolenoids t.sol, t.solChanged)) (exec (.sol1 0x00) up) =
    some (0, false) := by decide
theorem test_sol2 : field (fun t => packSolenoids t.sol) (exec (.sol2 0x01) up) = some 0x00000100 := by decide
theorem test_sol3 : field (fun t => packSolenoids t.sol) (exec (.sol3 0x80) up) = some 0x00800000 := by decide
theorem test_sol4 : field (fun t => packSolenoids t.sol) (exec (.sol4 0x01) up) = some 0x01000000 := by decide

/-! ### Triac family (2.4) -/

/-- The table of `Level(d)`. -/
theorem test_level :
    [0, 999, 1000, 1999, 2000, 2500, 2999, 3000, 4200, 6200, 7999, 8000, 8001, 4294967295].map (level Params.reference) =
      [8, 8, 7, 7, 6, 6, 6, 5, 4, 2, 1, 0, 0, 0] := by decide
/-- T2: channels 0 and 2 have latched, channel 1 takes level 4. -/
theorem test_triacs_latched : field (fun t => (t.acc, t.latched))
    (exec (.triacs 0x07) { up with
      zcTime := 100000, clock := 104200, acc := [6, 0, 6, 0, 0], latched := [true, false, true, false, false] }) =
    some ([6, 4, 6, 0, 0], [true, true, true, false, false]) := by decide
/-- T7: the clock wrapped between the two reads. -/
theorem test_triacs_wrap : field State.acc
    (exec (.triacs 0x01) { up with zcTime := 4294967040, clock := 4294967296 + 1024 }) = some [7, 0, 0, 0, 0] := by decide
/-- The marker without a rollover. -/
theorem test_zc_close : [Unfired.hold, .off, .brightest].map (fun u => field (fun t => (t.acc, t.zcWin, t.zcTime, t.latched))
      (exec (.zc 0) { up with
        params := withUnfired u, zcWin := 3, bright := [3, 3, 0, 0, 0], acc := [10, 9, 0, 0, 0],
        latched := [true, false, false, false, false], clock := 30000 })) =
    [some ([10, 12, 0, 0, 0], 4, 30000, [false, false, false, false, false]),
      some ([10, 9, 0, 0, 0], 4, 30000, [false, false, false, false, false]),
      some ([10, 17, 8, 8, 8], 4, 30000, [false, false, false, false, false])] := by decide
/-- The marker with a rollover. -/
theorem test_zc_rollover : [Unfired.hold, .off, .brightest].map (fun u => field (fun t => (t.bright, t.acc, t.zcWin))
      (exec (.zc 1) { up with
        params := withUnfired u, zcWin := 7, bright := [3, 3, 3, 3, 3], acc := [42, 21, 0, 56, 7],
        latched := [true, false, false, true, false], clock := 66664 })) =
    [some ([5, 3, 0, 7, 1], [0, 0, 0, 0, 0], 0), some ([5, 2, 0, 7, 0], [0, 0, 0, 0, 0], 0),
      some ([5, 3, 1, 7, 1], [0, 0, 0, 0, 0], 0)] := by decide

/-! ### Decoder loop and errors (2.5) -/

/-- POLL at depth 8 of 8 with `maxDepth = 3`. -/
theorem test_poll_full : field (fun t => (t.maxDepth, t.overflowFlag, t.eventCount, t.dq.length, t.ph))
    (step { upAt .poll with dq := List.replicate 8 0x0033, maxDepth := 3 }) = some (8, true, 1, 7, .dispatch) := by decide
/-- POLL at depth 3 with `maxDepth = 5`. -/
theorem test_poll_depth : field (fun t => (t.maxDepth, t.overflowFlag, t.dq.length))
    (step { upAt .poll with dq := List.replicate 3 0x0033, maxDepth := 5 }) = some (5, false, 2) := by decide
/-- E3 row 1: the ninth word finds the queue full. -/
theorem test_ninth_word_is_lost : (strobed 0xFDFF { up with dq := List.replicate 8 0x0201 }).dq =
    List.replicate 8 0x0201 := by decide
/-- P3's last sentence: under the alternative of U4 the oldest word is the one lost. -/
theorem test_ninth_word_overwrites : pushWord { Params.reference with fullPush := .oldestOverwritten } 9
    [1, 2, 3, 4, 5, 6, 7, 8] = [2, 3, 4, 5, 6, 7, 8, 9] := by decide
theorem test_invalid : field (fun t => (t.addressErrorCount, t.ph)) (exec (.invalid 0x00 0x33) up) =
    some (1, .notifyLamp) := by decide
/-- R31: a finite counter stays at its top value. -/
theorem test_counter_saturates : bump { Params.reference with cntw := some 8 } 255 = 255 := by decide
/-- P4 row 8: the change is counted, the flag cleared, the slot called. -/
theorem test_notify_lamp : field (fun t => (t.eventCount, t.lightsChanged, t.out, t.ph))
    (step { upAt .notifyLamp with eventCount := 2, lightsChanged := true, lampCb := some 1 }) =
    some (3, false, [.lampCall 1], .cbLamp) := by decide
/-- S7: the second increment happens without a slot. -/
theorem test_notify_sol_unset : field (fun t => (t.eventCount, t.out, t.ph))
    (step { upAt .notifySol with eventCount := 1, solChanged := true }) = some (2, [], .check) := by decide

/-! ### Host operations (2.6) -/

/-- H8: `start` keeps the store and clears the private registers. -/
theorem test_start : field (fun t => (t.bright, t.eventCount, t.pendingCol, t.dq, t.running))
    (exec .start { State.reset with bright := [6, 0, 0, 0, 0], eventCount := 40, pendingCol := some 2, dq := [1] }) =
    some ([6, 0, 0, 0, 0], 40, none, [], true) := by decide
/-- R200's precondition. -/
theorem test_start_running : exec .start up = .refused .startWhileActive := rfl
/-- P4 row 7: `stop` clears `enable` and waits. -/
theorem test_stop_waits : field (fun t => (t.enable, t.samplerActive, t.calls)) (exec .stop up) =
    some (false, true, [(.host 0, .stopping)]) := by decide
/-- H7. -/
theorem test_stop_stopped : exec .stop State.reset = .next State.reset := rfl
/-- H4: a callback replaces the one before. -/
theorem test_set_lamp_notify : field State.lampCb (exec (.setLampNotify (some 2)) { up with lampCb := some 1 }) =
    some (some 2) := by decide
/-- H5: `none` unsets. -/
theorem test_set_sol_notify_none : field State.solCb (exec (.setSolNotify none) { up with solCb := some 1 }) =
    some none := by decide
/-- L13's and R205's packing. -/
theorem test_get_lights : field State.out (exec .getLights { up with lamp := #v[1, 2, 4, 8, 16, 32, 64, 128] }) =
    some [.lights (.host 0) 0x8040201008040201] := by decide
/-- P1's end state. -/
theorem test_get_solenoids : field State.out (exec .getSolenoids { up with sol := #v[0x10, 0, 0, 0xC0] }) =
    some [.solenoids (.host 0) 0xC0000010] := by decide
/-- R207: the last of the five reads returns the sequence. -/
theorem test_get_gi_last_read : field State.out
    (step { up with
      bright := [6, 0, 6, 0, 0]
      calls := [(.host 0, .gi [some 6, some 0, none, some 0, some 0])]
      script := [.readGi (.host 0) 2] }) = some [.gi (.host 0) [6, 0, 6, 0, 0]] := by decide
/-- E1 row 5, without `DIAG`: the last of the four reads returns the record. -/
theorem test_get_stats_last_read : field State.out
    (step { up with
      params := { Params.reference with diag := false }
      eventCount := 4
      calls := [(.host 0, .stats { maxQueueDepth := some 1, overflow := some false, addressErrors := some 0 })]
      script := [.readStat (.host 0) .eventCount] }) = some [.stats (.host 0) ⟨1, 4, false, 0, none⟩] := by decide
/-- E3 row 4: the depth statistic stays. -/
theorem test_reset_overflow : field (fun t => (t.overflowFlag, t.maxDepth))
    (exec .resetOverflow { up with overflowFlag := true, maxDepth := 8 }) = some (false, 8) := by decide
/-- H9. -/
theorem test_construct_invalid :
    step { State.reset with script := [.construct { Params.reference with w := 6 }] } = .fault .configurationError := rfl

/-! ### Witnesses: for every statement with hypotheses, values that meet them together, clause by clause -/

/-- Every published level of `up` is 0. -/
theorem up_brightAt (k : Nat) : up.brightAt k = 0 := by
  show (List.replicate 5 (0 : Byte)).getD k 0 = 0
  rw [List.getD_eq_getElem?_getD, List.getElem?_replicate]; split <;> rfl

/-- Every accumulator of `up` is 0. -/
theorem up_accAt (k : Nat) : up.accAt k = 0 := by
  show (List.replicate 5 0).getD k 0 = 0
  rw [List.getD_eq_getElem?_getD, List.getElem?_replicate]; split <;> rfl

/-- The block just after `start` meets the invariant. -/
theorem witness_inv_up : Inv up where
  valid := test_valid_reference
  brightLength := rfl
  latchedLength := rfl
  accLength := rfl
  brightRange k := by rw [up_brightAt]; exact Nat.zero_le _
  windowRange := by decide
  accRange k := by rw [up_accAt]; exact Nat.zero_le _
  lightsPhase := by decide
  solPhase := by decide
  oneChange := by decide
  wordsFit := by decide
  markersFit := by decide
  depthRange := by decide
  overflowDepth := by decide
  errorsCounted := by decide
  errorsPending := by decide
  runningPhase := by decide
  samplerOn := by decide

/-- The block in ZCDRAIN with two markers and a word waiting and `enable` cleared. -/
def stopping : State :=
  { up with ph := .zcdrain, enable := false, zq := [0, 1], dq := [0x2004], out := [] }

/-- That state meets the invariant. -/
theorem witness_inv_stopping : Inv stopping where
  valid := test_valid_reference
  brightLength := rfl
  latchedLength := rfl
  accLength := rfl
  brightRange := witness_inv_up.brightRange
  windowRange := by decide
  accRange := witness_inv_up.accRange
  lightsPhase := by decide
  solPhase := by decide
  oneChange := by decide
  wordsFit := by decide
  markersFit := by decide
  depthRange := by decide
  overflowDepth := by decide
  errorsCounted := by decide
  errorsPending := by decide
  runningPhase := by decide
  samplerOn := by decide

theorem witness_EveryStepKeepsTheInvariant : Inv stopping ∧ ∃ t, step stopping = .next t ∧ t.zcWin = 1 :=
  ⟨witness_inv_stopping, _, rfl, rfl⟩

theorem witness_ConstructionChecksTheParameters_valid :
    ({ up with script := [.construct zcBit7] } : State).script = [.construct zcBit7] ∧ zcBit7.Valid := by decide

theorem witness_ConstructionChecksTheParameters_invalid :
    ({ up with script := [.construct { Params.reference with w := 6 }] } : State).script =
      [.construct { Params.reference with w := 6 }] ∧ ¬({ Params.reference with w := 6 } : Params).Valid := by decide

theorem witness_DecodeOfEncodeGivesTheInstruction : zcBit7.Valid ∧
    ∀ i ∈ [Instr.triacs 0xFF, .sol1 0, .sol2 0xFF, .sol3 1, .sol4 0x80, .lcol 0, .lrow 0xFF, .invalid 0xFF 0xFF,
      .invalid 0 0, .zc 1, .start, .stop, .setLampNotify (some 5), .setSolNotify none, .getLights, .getSolenoids, .getGi,
      .getStats, .resetOverflow], i.wf zcBit7 = true := by decide

theorem witness_EveryWordDecodesWellFormed : Params.reference.Valid ∧ zcBit7.Valid := by decide

theorem witness_TargetIsTheTableEntryOfTheMaskedAddress :
    Params.reference.zcAddrBit = none ∧ zcBit7.zcAddrBit = some 7 := by decide

theorem witness_StepRunsTheDecodedInstruction_word : decoderTurn (upAt .dispatch) = true ∧ (upAt .dispatch).ph = .dispatch := by
  decide

theorem witness_StepRunsTheDecodedInstruction_marker :
    decoderTurn stopping = true ∧ stopping.ph = .zcdrain ∧ stopping.zq = [0, 1] := by decide

theorem witness_StepRunsTheDecodedInstruction_call :
    ({ up with script := [.host (.host 3) ⟨8, none⟩] } : State).script = [.host (.host 3) ⟨8, none⟩] ∧
      decodeCall ⟨8, none⟩ = .ok .resetOverflow ∧
      ready (.host 3) .resetOverflow { up with script := [.host (.host 3) ⟨8, none⟩] } = true := by decide

theorem witness_CallsThatNameNoOperationAreRefused :
    ({ up with script := [.host (.host 0) ⟨9, none⟩] } : State).script = [.host (.host 0) ⟨9, none⟩] ∧
      9 ≤ (9 : BitVec 4).toNat ∧ 9 ≤ (15 : BitVec 4).toNat ∧
      ({ up with script := [.host (.host 0) ⟨8, some 1⟩] } : State).script = [.host (.host 0) ⟨8, some 1⟩] ∧
      (8 : BitVec 4).toNat ∈ [0, 1, 4, 5, 6, 7, 8] ∧ (some 1 : Option Callback) ≠ none := by decide

/-- Each target at DISPATCH (the routing clause of the statements about words). -/
theorem witness_RoutedAs : [(0x01FF, Target.triacs), (0x0200, .sol1), (0x0401, .sol2), (0x0880, .sol3), (0x10FF, .sol4),
      (0x2004, .lcol), (0x40AA, .lrow), (0x0033, .invalid)].all (fun e : BusWord × Target =>
    decoderTurn { upAt .dispatch with cur := e.1 } && decide (targetOf up.params e.1 = e.2)) = true := by decide

/-- Column 0, column 7, and bytes that select nothing. -/
theorem witness_LcolSelectsThePendingColumn :
    (0x01 : Byte) = 1 <<< (0 : Fin 8).val ∧ (0x80 : Byte) = 1 <<< (7 : Fin 8).val ∧
      (∀ d ∈ [(0x03 : Byte), 0xFF], d ≠ 0 ∧ ∀ c : Fin 8, d ≠ (1 : Byte) <<< c.val) := by decide

/-- A pending column with a differing byte, one with an equal byte, and none. -/
theorem witness_LrowAppliesTheRowByte :
    (({ up with pendingCol := some 7 } : State).pendingCol = some 7 ∧ up.lamp[(7 : Fin 8)] ≠ 0xAA ∧ up.lampLock = none) ∧
      (({ up with pendingCol := some 0 } : State).pendingCol = some 0 ∧ up.lamp[(0 : Fin 8)] = 0) ∧
      up.pendingCol = none := by decide

theorem witness_FrameOfLrow :
    (lrowStore 0xAA { up with pendingCol := some 7 } = some 7 ∧ ∃ t, exec (.lrow 0xAA) { up with pendingCol := some 7 } = .next t) ∧
      (lrowStore 0 up = none ∧ ∃ t, exec (.lrow 0) up = .next t) := ⟨⟨rfl, _, rfl⟩, rfl, _, rfl⟩

/-- A step that changes a lamp byte. -/
theorem witness_OnlyAnLrowStepChangesALampByte :
    constructsNext { upAt .dispatch with pendingCol := some 2, cur := 0x40AA } = false ∧
      ∃ t, step { upAt .dispatch with pendingCol := some 2, cur := 0x40AA } = .next t ∧
        t.lamp[(2 : Fin 8)] ≠ up.lamp[(2 : Fin 8)] ∧ t.lamp[(2 : Fin 8)] = 0xAA :=
  ⟨rfl, _, rfl, by decide⟩

/-- A word and a `start` that change the pending column. -/
theorem witness_OnlyLampWordsAndStartChangeThePendingColumn :
    (∃ t, step { upAt .dispatch with cur := 0x2004 } = .next t ∧ t.pendingCol ≠ up.pendingCol) ∧
      (∃ t, step { State.reset with pendingCol := some 2, script := [.host (.host 0) ⟨0, none⟩] } = .next t ∧
        t.pendingCol ≠ some 2) := ⟨⟨_, rfl, by decide⟩, _, rfl, by decide⟩

theorem witness_SolenoidWordsRouteTheirByte :
    up.solLock = none ∧ ∀ i : Fin 4, up.sol[i] ≠ 0xFF ∧ up.sol[i] = 0x00 := by decide

theorem witness_FrameOfSolenoidWords :
    (∃ t, exec (solWord 0 0xFF) up = .next t) ∧ (∃ t, exec (solWord 3 0xFF) up = .next t) ∧
      (∃ t, exec (solWord 3 0) up = .next t) := ⟨⟨_, rfl⟩, ⟨_, rfl⟩, _, rfl⟩

/-- A step that changes a solenoid bank. -/
theorem witness_OnlyItsOwnWordChangesASolenoidBank :
    constructsNext { upAt .dispatch with cur := 0x1001 } = false ∧
      ∃ t, step { upAt .dispatch with cur := 0x1001 } = .next t ∧ t.sol[(3 : Fin 4)] ≠ up.sol[(3 : Fin 4)] ∧
        t.sol[(3 : Fin 4)] = 0x01 :=
  ⟨rfl, _, rfl, by decide⟩

theorem witness_StoringWordsWaitForAReader :
    (({ up with pendingCol := some 2, lampLock := some (.host 1) } : State).pendingCol = some 2 ∧
      up.lamp[(2 : Fin 8)] ≠ 0xAA ∧ (some (.host 1) : Option Ctx) ≠ none) ∧
      up.sol[(0 : Fin 4)] ≠ 1 ∧ up.sol[(3 : Fin 4)] ≠ 1 := by decide

theorem witness_ReplayedSolenoidWordStoresNothing :
    up.solLock = none ∧ ∃ t, exec (solWord 1 0x01) up = .next t ∧ t.sol[(1 : Fin 4)] = t.sol[(1 : Fin 4)] :=
  ⟨rfl, _, rfl, rfl⟩

theorem witness_ReplayedLampPairStoresNothing :
    up.lampLock = none ∧ ∃ t, execAll [.lcol ((1 : Byte) <<< (2 : Fin 8).val), .lrow 0xAA] up = some t ∧
      t.lamp[(2 : Fin 8)] = 0xAA := ⟨rfl, _, rfl, by decide⟩

/-- The reference table at the ends of each clause's range. -/
theorem witness_LevelFollowsTheStepTable : Params.reference.Valid ∧
    (999#32).toNat < Params.reference.stepT.getD 0 0 ∧
    (0 + 1 < Params.reference.lmax ∧ Params.reference.stepT.getD 0 0 ≤ (1000#32).toNat ∧
      (1999#32).toNat < Params.reference.stepT.getD 1 0) ∧
    (6 + 1 < Params.reference.lmax ∧ Params.reference.stepT.getD 6 0 ≤ (7999#32).toNat ∧
      (7999#32).toNat < Params.reference.stepT.getD 7 0) ∧
    Params.reference.stepT.getD (Params.reference.lmax - 1) 0 ≤ (8000#32).toNat ∧ (0#32).toNat ≤ (4294967295#32).toNat := by
  decide

/-- Channel 4 fires; channel 0 is not in the mask; channel 1 has latched. -/
theorem witness_TriacsTakesALevelForEveryFiredChannel :
    (up.acc.length = up.params.nch ∧ up.latched.length = up.params.nch) ∧
      (4 < up.params.nch ∧ (0x10 : Byte).getLsbD (chBitOf up.params 4) = true ∧ up.latchedAt 4 = false) ∧
      (0x10 : Byte).getLsbD (chBitOf up.params 0) = false ∧
      ({ up with latched := [false, true, false, false, false] } : State).latchedAt 1 = true := by decide

/-- The last marker but one of a window, and the last. -/
theorem witness_MarkerClosesTheHalfCycle :
    (up.acc.length = up.params.nch ∧ up.latched.length = up.params.nch) ∧
      ({ up with zcWin := 6 } : State).zcWin + 1 ≠ up.params.w ∧ ({ up with zcWin := 7 } : State).zcWin + 1 = up.params.w := by
  decide

/-- Masks that differ in the bits above the channels only. -/
theorem witness_IgnoredBitsChangeNothing :
    (up.acc.length = up.params.nch ∧ up.latched.length = up.params.nch) ∧
      ∀ k < up.params.nch, (0xE5 : Byte).getLsbD (chBitOf up.params k) = (0x05 : Byte).getLsbD (chBitOf up.params k) := by
  decide

theorem witness_FrameOfTheMarker :
    (∃ t, exec (.zc 0) up = .next t) ∧ ∃ t, exec (.zc 1) { up with zcWin := 7 } = .next t := ⟨⟨_, rfl⟩, _, rfl⟩

theorem witness_FrameOfWordsThatStoreNothing :
    (∃ t, exec (.lcol 4) up = .next t) ∧ (∃ t, exec (.triacs 0xFF) up = .next t) ∧ ∃ t, exec (.invalid 0 0) up = .next t :=
  ⟨⟨_, rfl⟩, ⟨_, rfl⟩, _, rfl⟩

/-- A step that publishes a level. -/
theorem witness_LevelsArePublishedOnlyAtARollover :
    ∃ t, step { upAt .zcdrain with zq := [0], zcWin := 7, acc := [42, 0, 0, 0, 0] } = .next t ∧ t.bright ≠ up.bright :=
  ⟨_, rfl, by decide⟩

theorem witness_AWindowOfEqualDelaysPublishesTheirLevel : Inv up ∧ up.zcWin = 0 ∧ 4 < up.params.nch ∧ up.accAt 4 = 0 ∧
    up.latchedAt 4 = false ∧ (0x10 : Byte).getLsbD (chBitOf up.params 4) = true ∧ 4294967295 < 2 ^ 32 ∧
    (List.replicate 8 0).length = up.params.w := ⟨witness_inv_up, by decide⟩

/-- A counter below its top value, and one at it. -/
theorem witness_CountersAddOneOrSaturate : Params.reference.cntw = none ∧
    ({ Params.reference with cntw := some 8 } : Params).cntw = some 8 ∧ 254 < 2 ^ 8 - 1 ∧ 2 ^ 8 - 1 ≤ 255 := by decide

theorem witness_InvalidWordCountsAnAddressError : up.params.cntw = none := by decide

theorem witness_CheckStopsTheLoopOrBeginsAnIteration : decoderTurn up = true ∧ up.ph = .check ∧ up.enable = true ∧
    decoderTurn { up with enable := false } = true ∧ decoderTurn State.reset = true ∧ State.reset.ph = .stopped := by decide

/-- A `start` leaves STOPPED. -/
theorem witness_CheckStopsTheLoopOrBeginsAnIteration_start :
    ∃ t, step { State.reset with script := [.host (.host 0) ⟨0, none⟩] } = .next t ∧ State.reset.ph = .stopped ∧
      t.ph ≠ .stopped := ⟨_, rfl, rfl, by decide⟩

theorem witness_EveryMarkerIsDrainedBeforeThePoll :
    (decoderTurn stopping = true ∧ stopping.ph = .zcdrain ∧ stopping.zq = [0, 1]) ∧
      decoderTurn (upAt .zcdrain) = true ∧ (upAt .zcdrain).zq = [] := by decide

/-- An empty queue, and one word. -/
theorem witness_PollRecordsTheDepthAndPopsOneWord :
    (decoderTurn (upAt .poll) = true ∧ (upAt .poll).ph = .poll ∧ (upAt .poll).dq = []) ∧
      ({ upAt .poll with dq := [0x2004] } : State).dq = [0x2004] := by decide

theorem witness_NotifyLampCountsAndCallsTheLampSlot :
    (decoderTurn (upAt .notifyLamp) = true ∧ (upAt .notifyLamp).ph = .notifyLamp ∧ (upAt .notifyLamp).lightsChanged = false) ∧
      (({ upAt .notifyLamp with lightsChanged := true } : State).lampCb = none) ∧
      ({ upAt .notifyLamp with lightsChanged := true, lampCb := some 1 } : State).lampCb = some 1 := by decide

theorem witness_NotifySolCountsAndCallsTheSolenoidSlot :
    (decoderTurn (upAt .notifySol) = true ∧ (upAt .notifySol).ph = .notifySol ∧ (upAt .notifySol).solChanged = false) ∧
      (({ upAt .notifySol with solChanged := true } : State).solCb = none) ∧
      ({ upAt .notifySol with solChanged := true, solCb := some 1 } : State).solCb = some 1 := by decide

theorem witness_TheDecoderWaitsForACallbackToReturn :
    (decoderTurn (upAt .cbLamp) = true ∧ (upAt .cbLamp).ph = .cbLamp) ∧ State.reset.ph = .stopped ∧
      ({ upAt .cbSol with script := [.callbackReturn] } : State).script = [.callbackReturn] ∧
      callOf .callback { upAt .cbSol with script := [.callbackReturn] } = none ∧
      (upAt .cbSol).lampLock ≠ some .callback ∧ (upAt .cbSol).solLock ≠ some .callback := by decide

theorem witness_EventCountLawOfOneStep : constructsNext { upAt .poll with dq := [0x2004] } = false ∧
    ∃ t, step { upAt .poll with dq := [0x2004] } = .next t ∧ t.eventCount = 1 := ⟨rfl, _, rfl, by decide⟩

/-- A step that counts an invalid word, and one that dispatches another. -/
theorem witness_AddressErrorCountLawOfOneStep :
    (∃ t, step { upAt .dispatch with cur := 0x0033 } = .next t ∧ t.addressErrorCount = 1) ∧
      ∃ t, step { upAt .dispatch with cur := 0x2004 } = .next t ∧ t.addressErrorCount = 0 := ⟨⟨_, rfl, by decide⟩, _, rfl, by decide⟩

/-- A block with 8-bit counters that dispatches an invalid word at error count n. -/
def narrow (n : Nat) : State :=
  { upAt .dispatch with params := { Params.reference with cntw := some 8 }, cur := 0x0033, addressErrorCount := n }

/-- A finite counter one below its top value, and at it. -/
theorem witness_AddressErrorCountLawOfOneStep_finite : ∀ n ∈ [254, 255],
    constructsNext (narrow n) = false ∧ decoderTurn (narrow n) = true ∧ (narrow n).ph = .dispatch ∧
      targetOf (narrow n).params (narrow n).cur = .invalid ∧ (narrow n).params.cntw = some 8 ∧
      field State.addressErrorCount (step (narrow n)) = some 255 := by decide

/-- A POLL of a full queue, in a state with the invariant's bounds. -/
theorem witness_MaxDepthLawOfOneStep : Inv up ∧ (∃ t, step up = .next t) ∧
    ∃ t, step { upAt .poll with dq := List.replicate 8 0 } = .next t ∧ t.maxDepth = 8 :=
  ⟨witness_inv_up, ⟨_, rfl⟩, _, rfl, by decide⟩

/-- Each element of the control state changed by its writer. -/
theorem witness_OnlyItsWritersChangeTheControlState :
    (∃ t, step { State.reset with script := [.host (.host 0) ⟨0, none⟩] } = .next t ∧ t.enable ≠ State.reset.enable ∧
      t.running ≠ State.reset.running ∧ t.samplerActive ≠ State.reset.samplerActive) ∧
    (∃ t, step { up with script := [.host (.host 0) ⟨1, none⟩] } = .next t ∧ t.enable ≠ up.enable) ∧
    (∃ t, step { up with enable := false } = .next t ∧ t.running ≠ up.running) ∧
    (∃ t, step { up with running := false, calls := [(.host 0, .stopping)], script := [.stopPoll (.host 0)] } = .next t ∧
      t.samplerActive ≠ up.samplerActive) ∧
    (∃ t, step { up with script := [.host (.host 0) ⟨2, some 1⟩] } = .next t ∧ t.lampCb ≠ up.lampCb) ∧
    (∃ t, step { up with script := [.enterGetter (.host 1) .lamp] } = .next t ∧ t.lampLock ≠ up.lampLock) ∧
    (∃ t, step { up with lampLock := some (.host 1), script := [.host (.host 1) ⟨4, none⟩] } = .next t ∧
      t.lampLock ≠ some (.host 1)) ∧
    (∃ t, step { up with script := [.enterGetter (.host 1) .sol] } = .next t ∧ t.solLock ≠ up.solLock) ∧
    (∃ t, step { up with solLock := some (.host 1), script := [.host (.host 1) ⟨5, none⟩] } = .next t ∧
      t.solLock ≠ some (.host 1)) ∧
    ∃ t, step { up with script := [.host (.host 0) ⟨3, some 1⟩] } = .next t ∧ t.solCb ≠ up.solCb :=
  ⟨⟨_, rfl, by decide⟩, ⟨_, rfl, by decide⟩, ⟨_, rfl, by decide⟩, ⟨_, rfl, by decide⟩, ⟨_, rfl, by decide⟩,
    ⟨_, rfl, by decide⟩, ⟨_, rfl, by decide⟩, ⟨_, rfl, by decide⟩, ⟨_, rfl, by decide⟩, _, rfl, by decide⟩

/-- A lamp call and a solenoid call. -/
theorem witness_CallbacksAreCalledOnlyForAPendingChange :
    (∃ t, step { upAt .notifyLamp with lightsChanged := true, lampCb := some 1 } = .next t ∧ t.out = .lampCall 1 :: up.out) ∧
      ∃ t, step { upAt .notifySol with solChanged := true, solCb := some 2 } = .next t ∧ t.out = .solCall 2 :: up.out :=
  ⟨⟨_, rfl, by decide⟩, _, rfl, by decide⟩

/-- A POLL that sets the flag, and a `reset_overflow` that clears it. -/
theorem witness_OverflowFlagIsSticky :
    (∃ t, step { upAt .poll with dq := List.replicate 8 0 } = .next t ∧ t.overflowFlag = true) ∧
      ∃ t, step { up with overflowFlag := true, script := [.host (.host 0) ⟨8, none⟩] } = .next t ∧ t.overflowFlag = false :=
  ⟨⟨_, rfl, by decide⟩, _, rfl, by decide⟩

theorem witness_OnlyCheckWithEnableClearStopsTheLoop :
    ∃ t, step { up with enable := false } = .next t ∧ up.ph ≠ .stopped ∧ t.ph = .stopped := ⟨_, rfl, by decide, by decide⟩

/-- No slot set and no callback running. -/
theorem witness_StopIsReachedWithinOneIteration : Inv stopping ∧ stopping.script = [] ∧ stopping.enable = false ∧
    stopping.lampLock = none ∧ stopping.solLock = none ∧ callOf .callback stopping = none ∧ stopping.lampCb = none ∧
    stopping.solCb = none ∧ inCallback stopping = false := ⟨witness_inv_stopping, by decide⟩

/-- The same block with both slots set and the lamp callback running. -/
def stoppingInCallback : State := { stopping with ph := .cbLamp, lampCb := some 1, solCb := some 2 }

theorem witness_inv_stoppingInCallback : Inv stoppingInCallback where
  valid := test_valid_reference
  brightLength := rfl
  latchedLength := rfl
  accLength := rfl
  brightRange := witness_inv_up.brightRange
  windowRange := by decide
  accRange := witness_inv_up.accRange
  lightsPhase := by decide
  solPhase := by decide
  oneChange := by decide
  wordsFit := by decide
  markersFit := by decide
  depthRange := by decide
  overflowDepth := by decide
  errorsCounted := by decide
  errorsPending := by decide
  runningPhase := by decide
  samplerOn := by decide

theorem witness_StopIsReachedWithinOneIteration_callback : Inv stoppingInCallback ∧ stoppingInCallback.script = [] ∧
    stoppingInCallback.enable = false ∧ stoppingInCallback.lampLock = none ∧ stoppingInCallback.solLock = none ∧
    callOf .callback stoppingInCallback = none ∧ inCallback stoppingInCallback = true :=
  ⟨witness_inv_stoppingInCallback, by decide⟩

theorem witness_StartBringsTheBlockUp : State.reset.caller ≠ .callback ∧ stopInProgress State.reset = false ∧
    State.reset.running = false ∧ State.reset.samplerActive = false := by decide

/-- A stopped block, a running one, and a context that waits. -/
theorem witness_StopWaitsForTheLoopToExit :
    (up.caller ≠ .callback ∧ stopInProgress up = false ∧ up.running = true ∧ State.reset.running = false) ∧
      ({ up with calls := [(.host 0, .stopping)], script := [.stopPoll (.host 0)] } : State).script = [.stopPoll (.host 0)] ∧
      callOf (.host 0) { up with calls := [(.host 0, .stopping)] } = some .stopping := by decide

theorem witness_SetNotifyReplacesTheSlot : up.caller ≠ .callback := by decide

theorem witness_SnapshotGettersReturnThePackedBytes :
    up.lampLock = none ∧ up.solLock = none ∧
      ({ up with lampLock := some (.host 0) } : State).lampLock = some up.caller ∧
      (({ up with lampLock := some (.host 1) } : State).lampLock = some (.host 1) ∧ Ctx.host 1 ≠ up.caller) ∧
      ({ up with solLock := some (.host 0) } : State).solLock = some up.caller ∧
      (({ up with solLock := some (.host 1) } : State).solLock = some (.host 1) ∧ Ctx.host 1 ≠ up.caller) := by decide

/-- A context enters its getter with the lock free, and with the lock held by another. -/
theorem witness_SnapshotGettersReturnThePackedBytes_enter : ∀ g ∈ [Group.lamp, .sol], ∀ h ∈ [none, some (Ctx.host 1)],
    ({ setLock g h up with script := [.enterGetter (.host 0) g] } : State).script = [.enterGetter (.host 0) g] ∧
      ready (.host 0) .start { setLock g h up with script := [.enterGetter (.host 0) g] } = true ∧
      lockOf (setLock g h up) g = h := by decide

/-- The five channels read backwards. -/
theorem witness_GetGiReturnsTheLevelsInAnyReadOrder :
    1 ≤ up.params.nch ∧ up.bright.length = up.params.nch ∧
      callOf (.host 0) { up with calls := [(.host 0, .gi (List.replicate 5 none))] } =
        some (.gi (List.replicate up.params.nch none)) ∧
      [4, 3, 2, 1, 0].Perm (List.range up.params.nch) := by decide

/-- The eight fields with `DIAG`, the four without. -/
theorem witness_GetStatsReturnsTheRecordInAnyReadOrder :
    callOf (.host 0) { up with calls := [(.host 0, .stats { })] } = some (.stats { }) ∧
      [StatField.triacEvents, .zeroCrossings, .cols, .rows, .addressErrors, .overflow, .eventCount, .maxQueueDepth].Perm
        (statFields up.params) ∧
      [StatField.overflow, .maxQueueDepth, .addressErrors, .eventCount].Perm
        (statFields { Params.reference with diag := false }) := by decide

/-- The first and the last channel of `get_gi`: with another channel still to be read, and as the last read. -/
theorem witness_OneReadTakesTheValueOfItsMoment_gi :
    ({ up with script := [.readGi (.host 0) 4] } : State).script = [.readGi (.host 0) 4] ∧
      (∀ got ∈ [[none, some 6, some 6, some 6, none], [some 1, some 6, some 6, some 6, none]],
        callOf (.host 0) { up with calls := [(.host 0, .gi got)], script := [.readGi (.host 0) 4] } = some (.gi got) ∧
          got[4]? = some none) ∧
      [none, some (6 : Byte), some 6, some 6, none][0]? = some none ∧
      (∀ j : Nat, j ≠ 4 → [some (1 : Byte), some 6, some 6, some 6, none][j]? ≠ some none) := by
  refine ⟨by decide, by decide, by decide, fun j hj => ?_⟩
  rcases j with _ | _ | _ | _ | _ | j
  all_goals first | exact absurd rfl hj | simp

/-- A field of `get_stats` with seven others still to be read, and as the last of the four without `DIAG`. -/
theorem witness_OneReadTakesTheValueOfItsMoment_stats :
    ({ up with script := [.readStat (.host 0) .overflow] } : State).script = [.readStat (.host 0) .overflow] ∧
      (callOf (.host 0) { up with calls := [(.host 0, .stats { })] } = some (.stats { }) ∧
        StatField.overflow ∈ statFields up.params ∧ ({ } : StatsPart).taken .overflow = none ∧
        ∃ g ∈ statFields up.params, g ≠ .overflow ∧ ({ } : StatsPart).taken g = none) ∧
      StatField.overflow ∈ statFields { Params.reference with diag := false } ∧
      ({ maxQueueDepth := some 1, eventCount := some 4, addressErrors := some 0 } : StatsPart).taken .overflow = none ∧
      ∀ g ∈ statFields { Params.reference with diag := false }, g ≠ .overflow →
        ({ maxQueueDepth := some 1, eventCount := some 4, addressErrors := some 0 } : StatsPart).taken g ≠ none := by
  decide

theorem witness_ResetOverflowClearsTheFlag : ({ up with overflowFlag := true } : State).caller ≠ .callback := by decide

theorem witness_FrameOfHostOperations :
    (∃ t, exec .start State.reset = .next t) ∧ (∃ t, exec .stop up = .next t) ∧
      (∃ t, exec (.setLampNotify (some 1)) up = .next t) ∧ (∃ t, exec (.setSolNotify (some 1)) up = .next t) ∧
      (∃ t, exec .getLights up = .next t) ∧ (∃ t, exec .getSolenoids up = .next t) ∧ (∃ t, exec .getGi up = .next t) ∧
      (∃ t, exec .getStats up = .next t) ∧ ∃ t, exec .resetOverflow up = .next t :=
  ⟨⟨_, rfl⟩, ⟨_, rfl⟩, ⟨_, rfl⟩, ⟨_, rfl⟩, ⟨_, rfl⟩, ⟨_, rfl⟩, ⟨_, rfl⟩, ⟨_, rfl⟩, _, rfl⟩

theorem witness_ForbiddenCallsAreRefused :
    (Instr.stop ∈ [Instr.start, .stop, .setLampNotify none, .setSolNotify none, .resetOverflow] ∧
      ({ upAt .cbLamp with caller := .callback } : State).caller = .callback) ∧
      (up.caller ≠ .callback ∧ stopInProgress { up with calls := [(.host 1, .stopping)] } = true) ∧
      stopInProgress up = false ∧ up.running = true := by decide

theorem witness_HostActionsWriteNoBusDerivedState :
    hostTurn { upAt .cbLamp with script := [.callbackReturn] } = true ∧
      ∃ t, step { upAt .cbLamp with script := [.callbackReturn] } = .next t := ⟨rfl, _, rfl⟩

/-- Room for one more word, a full queue under each setting of U4, and the sequencers off. -/
theorem witness_ProducersPushOnlyWhileActive :
    ({ up with script := [.strobe 0xDFFB] } : State).script = [.strobe 0xDFFB] ∧
      ({ up with script := [.zeroCross 1] } : State).script = [.zeroCross 1] ∧ up.samplerActive = true ∧
      State.reset.samplerActive = false ∧ (List.replicate 7 (0 : BusWord)).length < up.params.qcap ∧
      up.params.qcap ≤ (List.replicate 8 (0 : BusWord)).length ∧ up.params.fullPush = .newestDropped ∧
      ({ Params.reference with fullPush := .oldestOverwritten } : Params).fullPush = .oldestOverwritten ∧
      (List.replicate 7 (0 : Marker)).length < up.params.zqcap ∧ up.params.zqcap ≤ (List.replicate 8 (0 : Marker)).length := by
  decide

theorem witness_TimeAndParametersAreNotRewritten :
    (∃ t, step { up with script := [.tick 7] } = .next t ∧ t.clock = 7) ∧ constructsNext { up with script := [.tick 7] } = false :=
  ⟨⟨_, rfl, by decide⟩, rfl⟩

end Sys2Proof.Tests
end

section
/-! PROOFS. The depth statistic and the overflow flag (R33, R34): what one step does to the two fields that POLL records, said
once over the moves of `step_move`, and the two statements about them. -/

namespace Sys2Proof.Machine

/-! ### Whose turn it is, read off the schedule -/

theorem decoderTurn_eq_false {s : State} {e : Event} {rest : List Event} (hs : s.script = e :: rest) (he : e ≠ .decoder) :
    decoderTurn s = false := by
  simp [decoderTurn, hs, he]

theorem ne_construct_of_constructsNext {s : State} {e : Event} {rest : List Event} (hc : constructsNext s = false)
    (hs : s.script = e :: rest) (p : Params) : e ≠ .construct p := by
  rintro rfl
  simp [constructsNext, hs] at hc

/-! ### The fields that POLL records -/

/-- The decoder's turn finds a word waiting at POLL. -/
abbrev PollsWord (s : State) : Prop := decoderTurn s = true ∧ s.ph = .poll ∧ s.dq ≠ []

/-- Only the pop of a POLL records a depth (R184). -/
theorem DecoderMove.depth_cases {s t : State} (h : DecoderMove s t) :
    ((s.ph = .poll ∧ s.dq ≠ []) ∧ t.maxDepth = max s.maxDepth s.dq.length ∧
        t.overflowFlag = (s.overflowFlag || decide (s.dq.length = s.params.qcap))) ∨
      (¬(s.ph = .poll ∧ s.dq ≠ []) ∧ t.maxDepth = s.maxDepth ∧ t.overflowFlag = s.overflowFlag) := by
  cases h
  case polled w rest hp hq => exact .inl ⟨⟨hp, by simp [hq]⟩, rfl, rfl⟩
  case pollEmpty hp hq => exact .inr ⟨by simp [hq], rfl, rfl⟩
  case rests hp => exact .inr ⟨by rcases hp with hp | hp | hp <;> simp [hp], rfl, rfl⟩
  all_goals exact .inr ⟨by simp [*], by simp, by simp⟩

theorem EventMove.maxDepth_eq {s t : State} {e : Event} (h : EventMove s e t) (hc : ∀ p, e ≠ .construct p) :
    t.maxDepth = s.maxDepth := by
  cases h
  case constructed p _ => exact absurd rfl (hc p)
  all_goals simp [started]

/-- Besides the decoder only a `reset_overflow` writes the flag (R202). -/
theorem EventMove.overflowFlag_cases {s t : State} {e : Event} (h : EventMove s e t) (hc : ∀ p, e ≠ .construct p) :
    t.overflowFlag = s.overflowFlag ∨
      t.overflowFlag = false ∧ ∃ c call, e = .host c call ∧ decodeCall call = .ok .resetOverflow := by
  cases h
  case constructed p _ => exact absurd rfl (hc p)
  case resetOverflow c call hd => exact .inr ⟨rfl, c, call, rfl, hd⟩
  all_goals exact .inl (by simp [started])

/-- A step records the depth in a POLL that pops, and otherwise leaves the statistic, and the flag but for `reset_overflow`. -/
theorem step_depth_cases {s t : State} (hc : constructsNext s = false) (h : step s = .next t) :
    (PollsWord s ∧ t.maxDepth = max s.maxDepth s.dq.length ∧
        t.overflowFlag = (s.overflowFlag || decide (s.dq.length = s.params.qcap))) ∨
      (¬PollsWord s ∧ t.maxDepth = s.maxDepth ∧
        (t.overflowFlag = s.overflowFlag ∨ t.overflowFlag = false ∧ Issues .resetOverflow s)) := by
  rcases step_move h with ⟨hd, hm⟩ | ⟨e, rest, hs, he, hm⟩
  · rcases hm.depth_cases with ⟨hp, hmax, hflag⟩ | ⟨hp, hmax, hflag⟩
    · exact .inl ⟨⟨hd, hp⟩, hmax, hflag⟩
    · exact .inr ⟨fun hw => hp hw.2, hmax, .inl hflag⟩
  · have hne := ne_construct_of_constructsNext hc hs
    have hturn : decoderTurn s = false := decoderTurn_eq_false hs he
    refine .inr ⟨by simp [hturn], hm.maxDepth_eq hne, ?_⟩
    rcases hm.overflowFlag_cases hne with hflag | ⟨hflag, c, call, rfl, hcall⟩
    · exact .inl hflag
    · exact .inr ⟨hflag, c, call, rest, hs, hcall⟩

/-- Settles O41: the POLL that pops is the one writer, and the invariant bounds both sides of its maximum. -/
theorem maxDepthLawOfOneStep : Obligations.MaxDepthLawOfOneStep := by
  refine ⟨rfl, fun s t hc h => ?_⟩
  rcases step_depth_cases hc h with ⟨hp, hmax, -⟩ | ⟨hp, hmax, -⟩
  · exact ⟨by rw [if_pos hp, hmax], fun hi => hmax ▸ max_le hi.depthRange hi.wordsFit⟩
  · exact ⟨by rw [if_neg hp, hmax], fun hi => hmax ▸ hi.depthRange⟩

/-- Settles O44: the flag's two writers are the POLL that pops, which only sets it, and `reset_overflow`. -/
theorem overflowFlagIsSticky : Obligations.OverflowFlagIsSticky := by
  refine ⟨rfl, fun s t hc h => ?_⟩
  rcases step_depth_cases hc h with ⟨⟨hd, hp, -⟩, -, hflag⟩ | ⟨hn, -, hflag | ⟨hflag, hr⟩⟩
  · refine ⟨fun _ _ _ hq => by simp [hflag, hq], fun hs ht => ⟨hd, hp, ?_⟩, fun hs ht => ?_⟩
    · simpa [hflag, hs] using ht
    · simp [hflag, hs] at ht
  · exact ⟨fun hd hp hq => absurd ⟨hd, hp, hq⟩ hn, fun hs ht => by simp [hflag, hs] at ht,
      fun hs ht => by simp [hflag, hs] at ht⟩
  · exact ⟨fun hd hp hq => absurd ⟨hd, hp, hq⟩ hn, fun _ ht => by simp [hflag] at ht, fun _ _ => hr⟩

end Sys2Proof.Machine
end

section
/-! PROOFS. The lamp family's `LROW` (R122): how a word of a target reaches its meaning, what an `LROW` answers when it
stores and when it has nothing to store, and the statements about its effect and its frame. -/

namespace Sys2Proof.Machine

/-! ### A word at DISPATCH -/

/-- At DISPATCH the decoder runs the word in `cur` (R185). -/
theorem step_dispatch {s : State} (ht : decoderTurn s = true) (hp : s.ph = .dispatch) :
    step s = exec (decodeWord s.params s.cur) (afterHead s) := by
  rw [step_decoder ht]
  simp [decoderFetch, afterHead, hp, Fetched.outcome]

/-- A target is routed to the instruction that its words decode to. -/
theorem routedAs_of_decodeWord {T : Target} {f : Byte → Instr}
    (h : ∀ p w, targetOf p w = T → decodeWord p w = f (dataField w)) : RoutedAs T f :=
  fun s ht hp hT => by rw [step_dispatch ht hp, h s.params s.cur hT]

theorem routedAs_lrow : RoutedAs .lrow Instr.lrow :=
  routedAs_of_decodeWord fun p w hT => by simp [decodeWord, hT]

/-! ### What an `LROW` answers -/

/-- An `LROW` has nothing to store when no column is pending, or the pending column holds its byte. -/
theorem lrowStore_eq_none {d : Byte} {s : State} :
    lrowStore d s = none ↔ ∀ c, s.pendingCol = some c → s.lamp[c] = d := by
  simp [Option.eq_none_iff_forall_ne_some, lrowStore_eq_some]

theorem exec_lrow_of_lrowStore_none {d : Byte} {s : State} (h : lrowStore d s = none) :
    exec (.lrow d) s = .next (rowTaken s) := by
  simp [exec, execLrow, h]

theorem exec_lrow_of_lrowStore_some {d : Byte} {s : State} {c : Fin 8} (h : lrowStore d s = some c)
    (hl : s.lampLock = none) :
    exec (.lrow d) s = .next { rowTaken s with lamp := s.lamp.set c d, lightsChanged := true } := by
  simp [exec, execLrow, lockedWrite, lockOf, h, hl, writeByte, setIfInBounds_eq_set]

/-- Settles O13: with a free lock an `LROW` stores or takes the row only, as `lrowStore` says. -/
theorem lrowAppliesTheRowByte : Obligations.LrowAppliesTheRowByte := by
  refine ⟨routedAs_lrow, fun d s => ⟨fun c hc hd hl => ?_, fun c hc hd => ?_, fun hc => ?_⟩⟩
  · exact exec_lrow_of_lrowStore_some (lrowStore_eq_some.2 ⟨hc, hd⟩) hl
  · have hs : lrowStore d s = none := lrowStore_eq_none.2 (by simpa [hc] using hd)
    exact exec_lrow_of_lrowStore_none hs
  · have hs : lrowStore d s = none := lrowStore_eq_none.2 (by simp [hc])
    rw [exec_lrow_of_lrowStore_none hs, rowTaken, goTo, hc, diagBump]

/-- Settles O14: over the three answers of an `LROW`, of which only the store writes a byte. -/
theorem frameOfLrow : Obligations.FrameOfLrow := by
  intro d s t h
  rcases execLrow_cases d s with ⟨-, he⟩ | ⟨c, hs, -, he⟩ | ⟨c, -, -, he⟩ <;>
    rw [exec, he, next_eq_next] at h <;> subst h
  · exact ⟨fun g i _ => readByte_congr rfl rfl rfl g i, rfl⟩
  · exact ⟨fun g i hi => readByte_writeByte_other .lamp g c.val i d (rowTaken s) (hi c hs), rfl⟩
  · exact ⟨fun _ _ _ => rfl, rfl⟩

end Sys2Proof.Machine
end

section
/-! PROOFS. The solenoid family's words (R140 to R144): the bank a target routes to, what a bank's word answers when its byte
is equal and when it is stored, and the statement that says so for each of the four banks. -/

namespace Sys2Proof.Machine

/-- The target of solenoid bank i's word: SOL1 to SOL4 (R140). -/
def solTarget (i : Fin 4) : Target :=
  match i with
  | 0 => .sol1
  | 1 => .sol2
  | 2 => .sol3
  | 3 => .sol4

theorem decodeWord_of_solTarget {i : Fin 4} {p : Params} {w : BusWord} (h : targetOf p w = solTarget i) :
    decodeWord p w = solWord i (dataField w) := by
  match i with
  | 0 | 1 | 2 | 3 => simp [decodeWord, h, solTarget, solWord]

theorem routedAs_solWord (i : Fin 4) : RoutedAs (solTarget i) (solWord i) :=
  routedAs_of_decodeWord fun _ _ => decodeWord_of_solTarget

theorem exec_solWord_of_equal {i : Fin 4} {d : Byte} {s : State} (h : s.sol[i] = d) :
    exec (solWord i d) s = .next { s with ph := .notifyLamp } := by
  rw [exec_solWord, routeSol, if_pos h, goTo]

theorem exec_solWord_of_differs {i : Fin 4} {d : Byte} {s : State} (h : s.sol[i] ≠ d) (hl : s.solLock = none) :
    exec (solWord i d) s = .next { s with sol := s.sol.set i d, solChanged := true, ph := .notifyLamp } := by
  rw [exec_solWord, routeSol, if_neg h]
  simp [lockedWrite, lockOf, hl, writeByte, goTo, setIfInBounds_eq_set]

/-- Settles O17: each of the four words is its bank's `solWord`, and the two answers of a `solWord` say the rest. -/
theorem solenoidWordsRouteTheirByte : Obligations.SolenoidWordsRouteTheirByte :=
  ⟨routedAs_solWord 0, routedAs_solWord 1, routedAs_solWord 2, routedAs_solWord 3, fun _ _ =>
    ⟨⟨exec_solWord_of_differs (i := 0), exec_solWord_of_equal (i := 0)⟩,
      ⟨exec_solWord_of_differs (i := 1), exec_solWord_of_equal (i := 1)⟩,
      ⟨exec_solWord_of_differs (i := 2), exec_solWord_of_equal (i := 2)⟩,
      ⟨exec_solWord_of_differs (i := 3), exec_solWord_of_equal (i := 3)⟩⟩⟩

end Sys2Proof.Machine
end

section
/-! PROOFS. The decoder loop (R182, R184, R186): the decoder's turn at CHECK, at POLL, in STOPPED and at an `INVALID` word,
what leaves STOPPED, and the statements about these phases. -/

namespace Sys2Proof.Machine

/-! ### An `INVALID` word -/

/-- A word that selects no target is run as `INVALID` of its fields (R186). -/
theorem step_of_invalid_target {s : State} (ht : decoderTurn s = true) (hp : s.ph = .dispatch)
    (hT : targetOf s.params s.cur = .invalid) :
    step s = exec (.invalid (addrField s.cur) (dataField s.cur)) (afterHead s) := by
  rw [step_dispatch ht hp, decodeWord, hT]

theorem exec_invalid (a d : Byte) (s : State) :
    exec (.invalid a d) s = .next { s with
      addressErrorCount := bump s.params s.addressErrorCount
      ph := .notifyLamp } := by
  rw [exec, execInvalid, raiseAddressError, goTo]

/-- Settles O31: the word's route is `INVALID` of its fields, whose meaning is one address error. -/
theorem invalidWordCountsAnAddressError : Obligations.InvalidWordCountsAnAddressError :=
  ⟨fun _ => step_of_invalid_target, fun a d s => ⟨exec_invalid a d s, fun h => bump_unbounded h _⟩⟩

/-! ### CHECK and STOPPED -/

/-- A phase step without an instruction is what the decoder's turn answers (R180). -/
theorem step_of_decoderFetch {s : State} {r : Result} (ht : decoderTurn s = true)
    (h : decoderFetch (afterHead s) = .done r) : step s = r := by
  rw [step_decoder ht, h, Fetched.outcome]

theorem step_check {s : State} (ht : decoderTurn s = true) (hp : s.ph = .check) :
    step s = .next (checkStep (afterHead s)) :=
  step_of_decoderFetch ht (by simp [decoderFetch, afterHead, hp])

theorem step_stopped {s : State} (ht : decoderTurn s = true) (hp : s.ph = .stopped) :
    step s = .next (afterHead s) :=
  step_of_decoderFetch ht (by simp [decoderFetch, afterHead, hp])

theorem checkStep_of_disabled {s : State} (h : s.enable = false) :
    checkStep s = { s with running := false, ph := .stopped } := by
  simp [checkStep, h, goTo]

theorem checkStep_of_enabled {s : State} (h : s.enable = true) : checkStep s = { s with ph := .zcdrain } := by
  simp [checkStep, h, goTo]

/-- Besides the decoder only a `start`, a callback's return and a construction write the phase. -/
theorem EventMove.ph_cases {s t : State} {e : Event} (h : EventMove s e t) :
    t.ph = s.ph ∨ (∃ c call, e = .host c call ∧ decodeCall call = .ok .start) ∨
      (e = .callbackReturn ∧ (s.ph = .cbLamp ∨ s.ph = .cbSol)) ∨ ∃ p, e = .construct p := by
  cases h
  case start c call _ hd _ _ => exact .inr (.inl ⟨c, call, rfl, hd⟩)
  case lampReturned hp => exact .inr (.inr (.inl ⟨rfl, .inl hp⟩))
  case solReturned hp => exact .inr (.inr (.inl ⟨rfl, .inr hp⟩))
  case constructed p _ => exact .inr (.inr (.inr ⟨p, rfl⟩))
  all_goals exact .inl (by simp)

/-- A step that leaves STOPPED is a `start`: the decoder rests there, and no callback runs (R182). -/
theorem issues_start_of_leaves_stopped {s t : State} (hc : constructsNext s = false) (h : step s = .next t)
    (hp : s.ph = .stopped) (hne : t.ph ≠ .stopped) : Issues .start s := by
  rcases step_move h with ⟨ht, -⟩ | ⟨e, rest, hs, -, hm⟩
  · have hrests : t = afterHead s := next_eq_next.1 ((step_stopped ht hp).symm.trans h)
    exact absurd (hrests ▸ hp) hne
  · rcases hm.ph_cases with hph | ⟨c, call, rfl, hd⟩ | ⟨-, hcb⟩ | ⟨p, he⟩
    · exact absurd (hph.trans hp) hne
    · exact ⟨c, call, rest, hs, hd⟩
    · simp [afterHead, hp] at hcb
    · exact absurd he (ne_construct_of_constructsNext hc hs p)

/-- Settles O33: the two answers of `checkStep`, the rest in STOPPED, and its one way out. -/
theorem checkStopsTheLoopOrBeginsAnIteration : Obligations.CheckStopsTheLoopOrBeginsAnIteration := by
  refine ⟨fun s ht hp => ⟨fun he => ?_, fun he => ?_⟩, fun _ => step_stopped, fun _ _ => issues_start_of_leaves_stopped⟩
  · rw [step_check ht hp, checkStep_of_disabled (s := afterHead s) he]
  · rw [step_check ht hp, checkStep_of_enabled (s := afterHead s) he]

/-! ### POLL -/

theorem step_poll {s : State} (ht : decoderTurn s = true) (hp : s.ph = .poll) :
    step s = .next (pollStep (afterHead s)) :=
  step_of_decoderFetch ht (by simp [decoderFetch, afterHead, hp])

/-- Recording a depth writes the maximum and the flag, and nothing else (R184). -/
theorem recordDepth_eq (n : Nat) (s : State) :
    recordDepth n s = { s with
      maxDepth := max s.maxDepth n
      overflowFlag := if n = s.params.qcap then true else s.overflowFlag } := by
  by_cases h : n = s.params.qcap <;> simp [recordDepth, raiseBusOverflow, h]

theorem pollStep_of_empty {s : State} (h : s.dq = []) : pollStep s = { s with ph := .check } := by
  simp [pollStep, h, goTo]

theorem pollStep_of_word {s : State} {w : BusWord} {rest : List BusWord} (h : s.dq = w :: rest) :
    pollStep s = { s with
      maxDepth := max s.maxDepth (rest.length + 1)
      overflowFlag := if rest.length + 1 = s.params.qcap then true else s.overflowFlag
      cur := w
      dq := rest
      eventCount := bump s.params s.eventCount
      ph := .dispatch } := by
  simp [pollStep, h, recordDepth_eq, countEvent, goTo]

/-- Settles O35: a POLL is `pollStep`, which goes to CHECK or records, pops and counts one word. -/
theorem pollRecordsTheDepthAndPopsOneWord : Obligations.PollRecordsTheDepthAndPopsOneWord := by
  refine fun s ht hp => ⟨fun hq => ?_, fun w rest hq => ⟨?_, fun hw => bump_unbounded hw _⟩⟩
  · rw [step_poll ht hp, pollStep_of_empty (s := afterHead s) hq]
  · rw [step_poll ht hp, pollStep_of_word (s := afterHead s) hq, afterHead]

end Sys2Proof.Machine
end

section
/-! PROOFS. The host operations (R202): `reset_overflow` outside a callback. -/

namespace Sys2Proof.Machine

theorem exec_resetOverflow (s : State) :
    exec .resetOverflow s = unlessCallback s (.next { s with overflowFlag := false }) := rfl

/-- Settles O54: outside a callback the guard of a mutating operation passes its answer through. -/
theorem resetOverflowClearsTheFlag : Obligations.ResetOverflowClearsTheFlag := by
  intro s hcaller
  rw [exec_resetOverflow, unlessCallback_of_ne hcaller]

end Sys2Proof.Machine
end

section
/-! PROOFS. The correlator's two instructions as updates of the state (R152 to R156): what `TRIACS` and the marker leave in each
channel. The invariant, the window and the statements about the triac family read the channels through these lemmas. -/

namespace Sys2Proof.Machine

/-! ### `TRIACS` -/

/-- The block after a `TRIACS` word (R152). -/
def triacsTaken (d : Byte) (s : State) : State :=
  { s with
    triacDetected := diagBump s.params s.triacDetected
    acc := s.acc.mapIdx fun k a => if s.fires d k then a + level s.params s.delay else a
    latched := s.latched.mapIdx fun k b => b || s.fires d k
    ph := .notifyLamp }

theorem exec_triacs (d : Byte) (s : State) : exec (.triacs d) s = .next (triacsTaken d s) := rfl

@[simp] theorem triacsTaken_acc_length (d : Byte) (s : State) : (triacsTaken d s).acc.length = s.acc.length := by
  simp [triacsTaken]

@[simp] theorem triacsTaken_latched_length (d : Byte) (s : State) :
    (triacsTaken d s).latched.length = s.latched.length := by
  simp [triacsTaken]

theorem triacsTaken_accAt (d : Byte) {s : State} {k : Nat} (h : k < s.acc.length) :
    (triacsTaken d s).accAt k = if s.fires d k then s.accAt k + level s.params s.delay else s.accAt k := by
  simp [triacsTaken, State.accAt, List.getD_eq_getElem?_getD, h]

theorem triacsTaken_latchedAt (d : Byte) {s : State} {k : Nat} (h : k < s.latched.length) :
    (triacsTaken d s).latchedAt k = (s.latchedAt k || s.fires d k) := by
  simp [triacsTaken, State.latchedAt, List.getD_eq_getElem?_getD, h]

theorem fires_eq_true {s : State} {d : Byte} {k : Nat} :
    s.fires d k = true ↔ d.getLsbD (chBitOf s.params k) = true ∧ s.latchedAt k = false := by
  simp [State.fires]

theorem fires_eq_false {s : State} {d : Byte} {k : Nat} :
    s.fires d k = false ↔ d.getLsbD (chBitOf s.params k) = false ∨ s.latchedAt k = true := by
  simp only [State.fires, Bool.and_eq_false_iff, Bool.not_eq_false']

/-! ### The marker -/

/-- The marker's half-cycle closed, counted and stamped, before it is counted toward the window (R153). -/
def markerStamped (s : State) : State :=
  { halfCycleClose s with
    zcDetected := diagBump s.params s.zcDetected
    zcTime := s.now }

/-- The block after a marker (R153). -/
def markerTaken (s : State) : State := goTo .zcdrain (countMarker (markerStamped s))

theorem exec_zc (m : Marker) (s : State) : exec (.zc m) s = .next (markerTaken s) := rfl

theorem markerTaken_of_last {s : State} (h : s.zcWin + 1 = s.params.w) :
    markerTaken s = { rollover (markerStamped s) with zcWin := 0, ph := .zcdrain } := by
  rw [markerTaken, countMarker, if_pos (show (markerStamped s).zcWin + 1 = (markerStamped s).params.w from h), goTo]

theorem markerTaken_of_not_last {s : State} (h : s.zcWin + 1 ≠ s.params.w) :
    markerTaken s = { markerStamped s with zcWin := s.zcWin + 1, ph := .zcdrain } := by
  rw [markerTaken, countMarker, if_neg (show (markerStamped s).zcWin + 1 ≠ (markerStamped s).params.w from h), goTo]
  rfl

/-- A marker writes the correlator's fields, its own count and the phase (R153). -/
theorem markerTaken_frame (s : State) :
    markerTaken s = { s with
      acc := (markerTaken s).acc
      latched := (markerTaken s).latched
      bright := (markerTaken s).bright
      zcTime := s.now
      zcWin := (markerTaken s).zcWin
      zcDetected := diagBump s.params s.zcDetected
      ph := .zcdrain } := by
  by_cases h : s.zcWin + 1 = s.params.w
  · rw [markerTaken_of_last h]; rfl
  · rw [markerTaken_of_not_last h]; rfl

@[simp] theorem markerTaken_latchedAt (s : State) (k : Nat) : (markerTaken s).latchedAt k = false := by
  by_cases h : s.zcWin + 1 = s.params.w
  · rw [markerTaken_of_last h]; exact rollover_latchedAt _ k
  · rw [markerTaken_of_not_last h]; exact halfCycleClose_latchedAt s k

theorem closeAddend_eq (s : State) (k : Nat) : closeAddend s k = if s.latchedAt k then 0 else s.fill k := by
  unfold closeAddend State.fill
  cases s.params.unfired <;> rfl

/-- Before it is published or carried on, a channel holds its accumulator and the close's addend (R154). -/
theorem markerStamped_accAt {s : State} {k : Nat} (h : k < s.acc.length) :
    (markerStamped s).accAt k = s.accAt k + closeAddend s k := by
  have hclose := halfCycleClose_accAt s h
  rw [closeAddend_eq]
  split <;> simp_all [markerStamped, State.accAt]

theorem markerTaken_accAt_of_last {s : State} (h : s.zcWin + 1 = s.params.w) (k : Nat) :
    (markerTaken s).accAt k = 0 := by
  rw [markerTaken_of_last h]; exact rollover_accAt _ k

theorem markerTaken_accAt_of_not_last {s : State} (h : s.zcWin + 1 ≠ s.params.w) {k : Nat} (hk : k < s.acc.length) :
    (markerTaken s).accAt k = s.accAt k + closeAddend s k := by
  rw [markerTaken_of_not_last h]; exact markerStamped_accAt hk

theorem markerTaken_brightAt_of_last {s : State} (h : s.zcWin + 1 = s.params.w) {k : Nat} (hk : k < s.acc.length) :
    (markerTaken s).brightAt k = BitVec.ofNat 8 ((s.accAt k + closeAddend s k) >>> s.params.log2w) := by
  rw [markerTaken_of_last h, ← markerStamped_accAt hk]
  exact rollover_brightAt _ (by simpa [markerStamped] using hk)

@[simp] theorem markerTaken_acc_length (s : State) : (markerTaken s).acc.length = s.acc.length := by
  by_cases h : s.zcWin + 1 = s.params.w
  · simp [markerTaken_of_last h, rollover, markerStamped]
  · simp [markerTaken_of_not_last h, markerStamped]

@[simp] theorem markerTaken_latched_length (s : State) : (markerTaken s).latched.length = s.latched.length := by
  by_cases h : s.zcWin + 1 = s.params.w
  · simp [markerTaken_of_last h, rollover, markerStamped]
  · simp [markerTaken_of_not_last h, markerStamped]

theorem markerTaken_bright_of_not_last {s : State} (h : s.zcWin + 1 ≠ s.params.w) :
    (markerTaken s).bright = s.bright := by
  rw [markerTaken_of_not_last h]; rfl

theorem markerTaken_bright_length_of_last {s : State} (h : s.zcWin + 1 = s.params.w) :
    (markerTaken s).bright.length = s.acc.length := by
  simp [markerTaken_of_last h, rollover, markerStamped]

theorem markerTaken_zcWin (s : State) :
    (markerTaken s).zcWin = if s.zcWin + 1 = s.params.w then 0 else s.zcWin + 1 := by
  split
  · rw [markerTaken_of_last ‹_›]
  · rw [markerTaken_of_not_last ‹_›]

end Sys2Proof.Machine
end

section
/-! PROOFS. The invariant (R52): it holds of a constructed block, each kind of move keeps it, and so does every step. -/

namespace Sys2Proof.Machine

/-! ### The invariant read at a phase -/

/-- A block that meets the invariant runs in every phase but STOPPED (R41). -/
theorem Inv.running_eq_true {s : State} (hi : Inv s) (hp : s.ph ≠ .stopped) : s.running = true := by
  by_contra h
  exact hp (hi.runningPhase.1 (by simpa using h))

theorem Inv.lightsChanged_eq_false {s : State} (hi : Inv s) (hp : s.ph ≠ .notifyLamp) : s.lightsChanged = false := by
  by_contra h
  exact hp (hi.lightsPhase (by simpa using h))

theorem Inv.solChanged_eq_false {s : State} (hi : Inv s) (hl : s.ph ≠ .notifyLamp) (hs : s.ph ≠ .notifySol) :
    s.solChanged = false := by
  by_contra h
  exact (hi.solPhase (by simpa using h)).elim hl hs

theorem inv_afterHead {s : State} (hi : Inv s) : Inv (afterHead s) := { hi with }

/-! ### Construction -/

/-- Every element of the reset table meets its range (R50, R52). -/
theorem inv_init {p : Params} (hv : p.Valid) (clock : Nat) (script : List Event) : Inv (State.init p clock script) where
  valid := hv
  brightLength := List.length_replicate
  latchedLength := List.length_replicate
  accLength := List.length_replicate
  brightRange k := by
    have h0 : (State.init p clock script).brightAt k = 0 := by
      simp only [State.brightAt, State.init, List.getD_eq_getElem?_getD, List.getElem?_replicate]
      split <;> rfl
    simp [h0]
  windowRange := Params_w_pos hv
  accRange k := by
    have h0 : (State.init p clock script).accAt k = 0 := by
      simp only [State.accAt, State.init, List.getD_eq_getElem?_getD, List.getElem?_replicate]
      split <;> rfl
    simp [h0]
  lightsPhase h := by simp [State.init] at h
  solPhase h := by simp [State.init] at h
  oneChange h := by simp [State.init] at h
  wordsFit := Nat.zero_le _
  markersFit := Nat.zero_le _
  depthRange := Nat.zero_le _
  overflowDepth h := by simp [State.init] at h
  errorsCounted := Nat.le_refl 0
  errorsPending h := by simp [State.init] at h
  runningPhase := by simp [State.init]
  samplerOn h := by simp [State.init] at h

/-! ### Phase changes -/

/-- A phase change of a running block keeps the invariant where no change is pending that the new phase has passed. -/
theorem Inv.moveTo {s : State} (hi : Inv s) (hp : s.ph ≠ .stopped) (P : Phase) (hP : P ≠ .stopped) (hd : P ≠ .dispatch)
    (hl : s.lightsChanged = true → P = .notifyLamp) (hs : s.solChanged = true → P = .notifyLamp ∨ P = .notifySol) :
    Inv { s with ph := P } :=
  { hi with
    lightsPhase := hl
    solPhase := hs
    errorsPending := fun h => absurd h hd
    runningPhase := by simp [hi.running_eq_true hp, hP] }

/-- Every word goes on to NOTIFY_LAMP (R185). -/
theorem Inv.toNotifyLamp {s : State} (hi : Inv s) (hp : s.ph = .dispatch) : Inv { s with ph := .notifyLamp } :=
  hi.moveTo (by simp [hp]) .notifyLamp (by simp) (by simp) (fun _ => rfl) fun _ => .inl rfl

/-- A phase change before any word is dispatched, with no change pending. -/
theorem Inv.moveIdle {s : State} (hi : Inv s) (hs : s.ph ≠ .stopped) (hl : s.ph ≠ .notifyLamp) (hn : s.ph ≠ .notifySol)
    (P : Phase) (hP : P ≠ .stopped) (hd : P ≠ .dispatch) : Inv { s with ph := P } :=
  hi.moveTo hs P hP hd (fun h => by simp [hi.lightsChanged_eq_false hl] at h)
    fun h => by simp [hi.solChanged_eq_false hl hn] at h

/-! ### The decoder's moves that need more than their phase -/

theorem Inv.stops {s : State} (hi : Inv s) (hp : s.ph = .check) : Inv { s with running := false, ph := .stopped } :=
  { hi with
    lightsPhase := fun h => by simp [hi.lightsChanged_eq_false (s := s) (by simp [hp])] at h
    solPhase := fun h => by simp [hi.solChanged_eq_false (s := s) (by simp [hp]) (by simp [hp])] at h
    errorsPending := fun h => by simp at h
    runningPhase := by simp
    samplerOn := fun h => by simp at h }

/-- A POLL that pops keeps the statistics consistent and counts the word before it can be an error (R184). -/
theorem Inv.polled {s : State} (hi : Inv s) {w : BusWord} {rest : List BusWord} (hp : s.ph = .poll) (hq : s.dq = w :: rest) :
    Inv { s with
      maxDepth := max s.maxDepth s.dq.length
      overflowFlag := s.overflowFlag || decide (s.dq.length = s.params.qcap)
      cur := w
      dq := rest
      eventCount := bump s.params s.eventCount
      ph := .dispatch } :=
  { hi with
    lightsPhase := fun h => by simp [hi.lightsChanged_eq_false (s := s) (by simp [hp])] at h
    solPhase := fun h => by simp [hi.solChanged_eq_false (s := s) (by simp [hp]) (by simp [hp])] at h
    wordsFit := by
      have hfit := hi.wordsFit
      rw [hq, List.length_cons] at hfit
      exact Nat.le_of_succ_le hfit
    depthRange := max_le hi.depthRange hi.wordsFit
    overflowDepth := fun h => by
      have hd := hi.depthRange
      have hw := hi.wordsFit
      rcases (by simpa using h : s.overflowFlag = true ∨ s.dq.length = s.params.qcap) with hf | hf
      · have := hi.overflowDepth hf
        show max s.maxDepth s.dq.length = s.params.qcap
        omega
      · show max s.maxDepth s.dq.length = s.params.qcap
        omega
    errorsCounted := hi.errorsCounted.trans (le_bump _ _)
    errorsPending := fun _ => bump_mono _ hi.errorsCounted
    runningPhase := by simp [hi.running_eq_true (s := s) (by simp [hp])] }

/-- An address error was counted as a word when it was popped (R184, R186). -/
theorem Inv.invalid {s : State} (hi : Inv s) (hp : s.ph = .dispatch) :
    Inv { s with addressErrorCount := bump s.params s.addressErrorCount, ph := .notifyLamp } :=
  { hi.toNotifyLamp hp with
    errorsCounted := hi.errorsPending hp
    errorsPending := fun h => by simp at h }

theorem Inv.lampStored {s : State} (hi : Inv s) (hp : s.ph = .dispatch) (c : Fin 8) (d : Byte) :
    Inv { s with
      lamp := s.lamp.set c d
      lightsChanged := true
      rowsDetected := diagBump s.params s.rowsDetected
      pendingCol := none
      ph := .notifyLamp } :=
  { hi.toNotifyLamp hp with
    lightsPhase := fun _ => rfl
    oneChange := fun h => by simp [hi.solChanged_eq_false (s := s) (by simp [hp]) (by simp [hp])] at h }

theorem Inv.solStored {s : State} (hi : Inv s) (hp : s.ph = .dispatch) (i : Fin 4) (d : Byte) :
    Inv { s with sol := s.sol.set i d, solChanged := true, ph := .notifyLamp } :=
  { hi.toNotifyLamp hp with
    solPhase := fun _ => .inl rfl
    oneChange := fun h => by simp [hi.lightsChanged_eq_false (s := s) (by simp [hp])] at h }

/-- One more event: the bound on the address errors grows (R187, R188). -/
theorem Inv.eventCounted {s : State} (hi : Inv s) : Inv { s with eventCount := bump s.params s.eventCount } :=
  { hi with
    errorsCounted := hi.errorsCounted.trans (le_bump _ _)
    errorsPending := fun h => (hi.errorsPending h).trans (le_bump _ _) }

/-- A lamp change counted and cleared, on the way to a phase that no change waits for: the other flag is clear. -/
theorem Inv.lampCleared {s : State} (hi : Inv s) (hp : s.ph = .notifyLamp) (hl : s.lightsChanged = true) (P : Phase)
    (hP : P ≠ .stopped) (hd : P ≠ .dispatch) :
    Inv { s with eventCount := bump s.params s.eventCount, lightsChanged := false, ph := P } := by
  have hs : s.solChanged = false := by simpa [hl] using hi.oneChange
  exact { hi.eventCounted with
    lightsPhase := fun h => by simp at h
    solPhase := fun h => by simp [hs] at h
    oneChange := fun h => by simp at h
    errorsPending := fun h => absurd h hd
    runningPhase := by simp [hi.running_eq_true (s := s) (by simp [hp]), hP] }

theorem Inv.solCleared {s : State} (hi : Inv s) (hp : s.ph = .notifySol) (P : Phase) (hP : P ≠ .stopped)
    (hd : P ≠ .dispatch) : Inv { s with eventCount := bump s.params s.eventCount, solChanged := false, ph := P } :=
  { hi.eventCounted with
    lightsPhase := fun h => by simp [hi.lightsChanged_eq_false (s := s) (by simp [hp])] at h
    solPhase := fun h => by simp at h
    oneChange := fun h => by simp at h
    errorsPending := fun h => absurd h hd
    runningPhase := by simp [hi.running_eq_true (s := s) (by simp [hp]), hP] }

/-! ### The correlator's moves -/

/-- A fired channel had not latched, so its accumulator has room for one level (R157). -/
theorem inv_triacsTaken {s : State} (hi : Inv s) (hp : s.ph = .dispatch) (d : Byte) : Inv (triacsTaken d s) :=
  { hi.toNotifyLamp hp with
    latchedLength := (triacsTaken_latched_length d s).trans hi.latchedLength
    accLength := (triacsTaken_acc_length d s).trans hi.accLength
    accRange := fun k => by
      by_cases hk : k < s.params.nch
      · rw [triacsTaken_accAt d (hi.accLength.symm ▸ hk), triacsTaken_latchedAt d (hi.latchedLength.symm ▸ hk)]
        have hacc := hi.accRange k
        by_cases hf : s.fires d k = true
        · have hlevel := level_le s.params s.delay
          rw [(fires_eq_true.1 hf).2] at hacc ⊢
          simp only [hf, if_true, Bool.or_true, Bool.toNat_true, Bool.toNat_false, Nat.add_zero] at hacc ⊢
          calc s.accAt k + level s.params s.delay ≤ s.zcWin * s.params.lmax + s.params.lmax := Nat.add_le_add hacc hlevel
            _ = (s.zcWin + 1) * s.params.lmax := by ring
        · simpa [hf, triacsTaken] using hacc
      · rw [accAt_of_length_le _ (by simpa [hi.accLength] using hk)]
        exact Nat.zero_le _ }

/-- An addend of a half-cycle is a level (R156, R157). -/
theorem Inv.closeAddend_le {s : State} (hi : Inv s) (k : Nat) : closeAddend s k ≤ s.params.lmax := by
  rw [closeAddend_eq]
  split <;> [exact Nat.zero_le _; exact fill_le hi.brightRange k]

/-- At a marker a channel holds at most one level for each half-cycle of the window so far (R157). -/
theorem Inv.closed_le {s : State} (hi : Inv s) (k : Nat) :
    s.accAt k + closeAddend s k ≤ (s.zcWin + 1) * s.params.lmax := by
  have hacc := hi.accRange k
  by_cases hl : s.latchedAt k = true
  · simpa [closeAddend, hl] using hacc
  · have hadd := hi.closeAddend_le k
    simp only [Bool.not_eq_true] at hl
    rw [hl, Bool.toNat_false, Nat.add_zero] at hacc
    calc s.accAt k + closeAddend s k ≤ s.zcWin * s.params.lmax + s.params.lmax := Nat.add_le_add hacc hadd
      _ = (s.zcWin + 1) * s.params.lmax := by ring

/-- What the W-th marker publishes is a level (R157). -/
theorem Inv.published_le {s : State} (hi : Inv s) (hw : s.zcWin + 1 = s.params.w) (k : Nat) :
    (s.accAt k + closeAddend s k) >>> s.params.log2w ≤ s.params.lmax := by
  have hclosed := hi.closed_le k
  rw [hw, hi.valid.1, Nat.mul_comm] at hclosed
  rw [Nat.shiftRight_eq_div_pow]
  exact Nat.div_le_of_le_mul (by rwa [Nat.mul_comm] at hclosed)

theorem Inv.markerTaken_bright {s : State} (hi : Inv s) :
    (markerTaken s).bright.length = s.params.nch ∧ ∀ k, ((markerTaken s).brightAt k).toNat ≤ s.params.lmax := by
  by_cases hw : s.zcWin + 1 = s.params.w
  · have hlength : (markerTaken s).bright.length = s.params.nch := by
      rw [markerTaken_bright_length_of_last hw, hi.accLength]
    refine ⟨hlength, fun k => ?_⟩
    by_cases hk : k < s.params.nch
    · rw [markerTaken_brightAt_of_last hw (hi.accLength.symm ▸ hk), BitVec.toNat_ofNat]
      exact (Nat.mod_le _ _).trans (hi.published_le hw k)
    · simp [State.brightAt, List.getD_eq_getElem?_getD, hlength, Nat.le_of_not_lt hk]
  · simpa only [State.brightAt, markerTaken_bright_of_not_last hw] using ⟨hi.brightLength, hi.brightRange⟩

theorem Inv.markerTaken_zcWin_lt {s : State} (hi : Inv s) : (markerTaken s).zcWin < s.params.w := by
  have hwin := hi.windowRange
  rw [markerTaken_zcWin]
  split <;> omega

/-- A marker clears the latches, so each accumulator is bounded by the half-cycles counted so far (R157). -/
theorem Inv.markerTaken_accAt_le {s : State} (hi : Inv s) (k : Nat) :
    (markerTaken s).accAt k ≤ (markerTaken s).zcWin * s.params.lmax := by
  by_cases hk : k < s.params.nch
  · by_cases hw : s.zcWin + 1 = s.params.w
    · rw [markerTaken_accAt_of_last hw]; exact Nat.zero_le _
    · rw [markerTaken_accAt_of_not_last hw (hi.accLength.symm ▸ hk), markerTaken_zcWin, if_neg hw]
      exact hi.closed_le k
  · rw [accAt_of_length_le _ (by simpa [hi.accLength] using hk)]; exact Nat.zero_le _

/-- A marker closes the half-cycle within the window's bound, and at its end publishes levels (R153 to R157). -/
theorem inv_markerTaken {s : State} (hi : Inv s) (hp : s.ph = .zcdrain) : Inv (markerTaken s) := by
  have hidle : Inv { s with ph := .zcdrain } :=
    hi.moveIdle (by simp [hp]) (by simp [hp]) (by simp [hp]) .zcdrain (by simp) (by simp)
  have hacc (k : Nat) : (markerTaken s).accAt k ≤
      ((markerTaken s).zcWin + ((markerTaken s).latchedAt k).toNat) * s.params.lmax := by
    simpa using hi.markerTaken_accAt_le k
  rw [markerTaken_frame]
  exact { hidle with
    brightLength := hi.markerTaken_bright.1
    latchedLength := (markerTaken_latched_length s).trans hi.latchedLength
    accLength := (markerTaken_acc_length s).trans hi.accLength
    brightRange := hi.markerTaken_bright.2
    windowRange := hi.markerTaken_zcWin_lt
    accRange := hacc }

theorem Inv.markerPopped {s : State} (hi : Inv s) {m : Marker} {rest : List Marker} (hz : s.zq = m :: rest) :
    Inv { s with zq := rest } :=
  { hi with
    markersFit := by
      have hfit := hi.markersFit
      rw [hz, List.length_cons] at hfit
      exact Nat.le_of_succ_le hfit }

/-- Every move of the decoder keeps the invariant. -/
theorem DecoderMove.inv {s t : State} (h : DecoderMove s t) (hi : Inv s) : Inv t := by
  cases h
  case rests => exact hi
  case stops hp _ => exact hi.stops hp
  case begins hp _ => exact hi.moveIdle (by simp [hp]) (by simp [hp]) (by simp [hp]) .zcdrain (by simp) (by simp)
  case drained hp _ => exact hi.moveIdle (by simp [hp]) (by simp [hp]) (by simp [hp]) .poll (by simp) (by simp)
  case marker m rest hp hz => exact inv_markerTaken (hi.markerPopped hz) hp
  case pollEmpty hp _ => exact hi.moveIdle (by simp [hp]) (by simp [hp]) (by simp [hp]) .check (by simp) (by simp)
  case polled w rest hp hq => exact hi.polled hp hq
  case triacs d hp _ => exact inv_triacsTaken hi hp d
  case solEqual hp _ _ => exact hi.toNotifyLamp hp
  case solStored i d hp _ _ _ => exact hi.solStored hp i d
  case solWaits => exact hi
  case lcol hp _ => exact { hi.toNotifyLamp hp with }
  case lrowDropped hp _ _ => exact { hi.toNotifyLamp hp with }
  case lrowStored c d hp _ _ _ _ => exact hi.lampStored hp c d
  case lrowWaits => exact hi
  case invalid hp _ => exact hi.invalid hp
  case noLampChange hp hl =>
    exact hi.moveTo (by simp [hp]) .notifySol (by simp) (by simp) (fun h => by simp [hl] at h) fun _ => .inr rfl
  case lampCounted hp hl _ => exact hi.lampCleared hp hl .notifySol (by simp) (by simp)
  case lampCalled hp hl _ => exact { hi.lampCleared hp hl .cbLamp (by simp) (by simp) with }
  case noSolChange hp hs =>
    exact hi.moveTo (by simp [hp]) .check (by simp) (by simp)
      (fun h => by simp [hi.lightsChanged_eq_false (s := s) (by simp [hp])] at h) fun h => by simp [hs] at h
  case solCounted hp _ _ => exact hi.solCleared hp .check (by simp) (by simp)
  case solCalled hp _ _ => exact { hi.solCleared hp .cbSol (by simp) (by simp) with }

/-! ### The other agents' moves -/

theorem inv_started {s : State} (hi : Inv s) : Inv (started s) :=
  { inv_init hi.valid s.clock s.script with
    brightLength := hi.brightLength
    brightRange := hi.brightRange
    lightsPhase := fun h => by simp [started] at h
    solPhase := fun h => by simp [started] at h
    depthRange := hi.depthRange
    overflowDepth := hi.overflowDepth
    errorsCounted := hi.errorsCounted
    errorsPending := fun h => by simp [started] at h
    runningPhase := by simp [started]
    samplerOn := fun _ => rfl }

/-- A stopped block may switch its sequencers off (R201). -/
theorem Inv.samplerOff {s : State} (hi : Inv s) (hr : s.running = false) : Inv { s with samplerActive := false } :=
  { hi with samplerOn := fun h => by simp [hr] at h }

theorem inv_setLock {s : State} (hi : Inv s) (g : Group) (h : Option Ctx) : Inv (setLock g h s) := by
  cases g <;> exact { hi with }

theorem one_le_qcap {p : Params} (hv : p.Valid) : 1 ≤ p.qcap := by
  obtain ⟨-, hqcap, -⟩ := hv
  exact hqcap

/-- Every move of another agent keeps the invariant. -/
theorem EventMove.inv {s t : State} {e : Event} (h : EventMove s e t) (hi : Inv s) : Inv t := by
  cases h
  case strobe => exact { hi with wordsFit := pushWord_length (one_le_qcap hi.valid) _ hi.wordsFit }
  case zeroCross => exact { hi with markersFit := pushMarker_length _ hi.markersFit }
  case start => exact inv_started { hi with }
  case stopIdle hr => exact { hi.samplerOff hr with }
  case stopReturns hr => exact { hi.samplerOff hr with }
  case resetOverflow => exact { hi with overflowDepth := fun h => by simp at h }
  case entersGetter c g _ _ => exact inv_setLock hi g (some c)
  case lampReturned hp => exact hi.moveIdle (by simp [hp]) (by simp [hp]) (by simp [hp]) .notifySol (by simp) (by simp)
  case solReturned hp => exact hi.moveIdle (by simp [hp]) (by simp [hp]) (by simp [hp]) .check (by simp) (by simp)
  case constructed p hv => exact inv_init hv _ _
  all_goals exact { hi with }

/-- Settles O3: a step is a move of the decoder or of another agent, and each keeps the invariant. -/
theorem everyStepKeepsTheInvariant : Obligations.EveryStepKeepsTheInvariant := by
  intro s t hi h
  rcases step_move h with ⟨-, hm⟩ | ⟨e, rest, -, -, hm⟩
  · exact hm.inv (inv_afterHead hi)
  · exact hm.inv (inv_afterHead hi)

end Sys2Proof.Machine
end

section
/-! PROOFS. The decoder and the encoder (R90 to R105): the target of a word made of its fields, codes that survive the mask, and
the statements that the two are inverse and total. -/

namespace Sys2Proof

/-! ### Fields, targets and codes -/

@[simp] theorem targetOf_busWord (p : Params) (a d : Byte) : targetOf p (busWord a d) = p.lookup (maskAddr p a) := by
  rw [targetOf, addrField_busWord]

theorem hasCode_iff {p : Params} {t : Target} :
    p.hasCode t = true ↔ ∃ a, p.code? t = some a ∧ p.lookup (maskAddr p a) = t := by
  unfold Params.hasCode
  cases p.code? t <;> simp

/-- The encoded word of a target that has a code selects the target and carries the data byte (R90, R94). -/
theorem encodeTarget_eq {p : Params} {t : Target} (h : p.hasCode t = true) (d : Byte) :
    ∃ w, encodeTarget p t d = .bw16 w ∧ targetOf p w = t ∧ dataField w = d := by
  obtain ⟨a, hcode, hlookup⟩ := hasCode_iff.1 h
  exact ⟨busWord a d, by simp [encodeTarget, hcode], by simp [hlookup], by simp⟩

/-- Settles O5: a target's word is decoded by its target, an `INVALID` word keeps its fields, and the numbered calls are
written from the decoder's own numbers. -/
theorem decodeOfEncodeGivesTheInstruction : Obligations.DecodeOfEncodeGivesTheInstruction := by
  intro p i _ hwf
  cases i with
  | triacs d | sol1 d | sol2 d | sol3 d | sol4 d | lcol d | lrow d =>
    obtain ⟨w, hw, ht, hd⟩ := encodeTarget_eq hwf d
    simp [encode, hw, decode, decodeWord, ht, hd]
  | invalid a d =>
    have ht : p.lookup (maskAddr p a) = .invalid := by simpa [Instr.wf] using hwf
    simp [encode, decode, decodeWord, ht]
  | zc | start | stop | setLampNotify | setSolNotify | getLights | getSolenoids | getGi | getStats | resetOverflow => rfl

/-! ### Every word -/

theorem mem_addrLut_of_code {p : Params} {t : Target} {a : Byte} (h : p.code? t = some a) :
    ∃ e ∈ p.addrLut, e.1 = a :=
  List.mem_map.1 (List.mem_of_find?_eq_some h)

theorem bit_getLsbD (b : Fin 8) (j : Nat) : ((1 : Byte) <<< b.val).getLsbD j = decide (b.val = j) := by
  simpa [BitVec.twoPow] using BitVec.getLsbD_twoPow (w := 8) b.val j

/-- Bit by bit, the mask clears the bit that the parameter names (R95). -/
theorem maskAddr_getLsbD {p : Params} {b : Fin 8} (h : p.zcAddrBit = some b) (a : Byte) (j : Nat) :
    (maskAddr p a).getLsbD j = (a.getLsbD j && decide (j ≠ b.val)) := by
  simp only [maskAddr, h, BitVec.getLsbD_and, BitVec.getLsbD_not, bit_getLsbD]
  by_cases hj : j < 8
  · simp [hj, eq_comm]
  · simp [hj, BitVec.getLsbD_of_ge a j (by omega)]

/-- A byte whose bit `ZC_ADDR_BIT` is clear keeps its value under the mask. -/
theorem maskAddr_of_clear {p : Params} {b : Fin 8} (h : p.zcAddrBit = some b) {a : Byte} (ha : a.getLsbD b = false) :
    maskAddr p a = a := by
  apply BitVec.eq_of_getLsbD_eq
  intro j _
  rw [maskAddr_getLsbD h]
  by_cases hj : j = b.val
  · subst hj; rw [ha, Bool.false_and]
  · simp [hj]

/-- No code of a valid table uses the ignored bit, so the mask keeps every code (R7, R95). -/
theorem maskAddr_of_code {p : Params} (hv : p.Valid) {t : Target} {a : Byte} (h : p.code? t = some a)
    (ht : t ≠ .invalid) : maskAddr p a = a := by
  obtain ⟨-, -, -, -, -, -, -, -, -, -, -, -, -, -, hunused⟩ := hv
  cases hb : p.zcAddrBit with
  | none => simp [maskAddr, hb]
  | some b =>
    obtain ⟨e, he, rfl⟩ := mem_addrLut_of_code h
    simp only [Params.zcBitUnused, hb, List.all_eq_true] at hunused
    have hclear := hunused e he
    rw [code?_selects h] at hclear
    exact maskAddr_of_clear hb (by simpa [ht] using hclear)

/-- A target that some word selects has a code (R93, R95). -/
theorem hasCode_targetOf {p : Params} (hv : p.Valid) {w : BusWord} (ht : targetOf p w ≠ .invalid) :
    p.hasCode (targetOf p w) = true := by
  obtain ⟨a, ha⟩ := Option.isSome_iff_exists.1 (code?_isSome ht)
  exact hasCode_iff.2 ⟨a, ha, by rw [maskAddr_of_code hv ha ht]; exact code?_selects ha⟩

/-- Settles O6: a word of a target is well-formed because its target has a code, an `INVALID` word because it selects none. -/
theorem everyWordDecodesWellFormed : Obligations.EveryWordDecodesWellFormed := by
  intro p w hv
  have hcode := hasCode_targetOf hv (w := w)
  cases ht : targetOf p w with
  | invalid =>
    have hlookup : p.lookup (maskAddr p (addrField w)) = .invalid := ht
    simp [decodeWord, ht, Instr.wf, hlookup]
  | triacs | sol1 | sol2 | sol3 | sol4 | lcol | lrow => simpa [decodeWord, ht, Instr.wf] using hcode

/-! ### The default table -/

/-- The default table has one address value for each target, so a selected target's code is the address (R93, D3). -/
theorem reference_code_of_lookup : ∀ a : Byte, Params.reference.lookup a ≠ .invalid →
    Params.reference.code? (Params.reference.lookup a) = some a := by
  decide

/-- Encoding a word's own target and data byte under the default table gives the word back. -/
theorem encodeTarget_reference {w : BusWord} (h : targetOf Params.reference w ≠ .invalid) :
    encodeTarget Params.reference (targetOf Params.reference w) (dataField w) = .bw16 w := by
  have hcode : Params.reference.code? (targetOf Params.reference w) = some (addrField w) :=
    reference_code_of_lookup (addrField w) h
  rw [encodeTarget, hcode, Option.getD_some, busWord_fields]

/-- Settles O7: a target's only code is the word's address field, and a word is made of its two fields. -/
theorem everyWordIsTheCodeOfItsInstruction : Obligations.EveryWordIsTheCodeOfItsInstruction := by
  intro w
  have hencode := encodeTarget_reference (w := w)
  cases ht : targetOf Params.reference w with
  | invalid => simp [decodeWord, ht, encode, busWord_fields]
  | triacs | sol1 | sol2 | sol3 | sol4 | lcol | lrow => simpa [decodeWord, ht, encode] using hencode

/-! ### Bits and written words -/

theorem addrField_getLsbD (w : BusWord) (j : Nat) : (addrField w).getLsbD j = (decide (j < 8) && w.getLsbD (8 + j)) := by
  simp [addrField]

theorem dataField_getLsbD (w : BusWord) (j : Nat) : (dataField w).getLsbD j = (decide (j < 8) && w.getLsbD j) := by
  simp [dataField]

/-- Settles O8: the fields and the mask, read bit by bit. -/
theorem targetIsTheTableEntryOfTheMaskedAddress : Obligations.TargetIsTheTableEntryOfTheMaskedAddress := by
  refine fun p w => ⟨addrField_getLsbD w, dataField_getLsbD w, fun h => ?_, fun b h => ?_⟩
  · simp [targetOf, maskAddr, h]
  · exact ⟨maskAddr p (addrField w), rfl, maskAddr_getLsbD h _⟩

/-- Settles O9: each written word decoded by the reference parameters. -/
theorem writtenWordsDecodeAsTheTableSays : Obligations.WrittenWordsDecodeAsTheTableSays := by
  unfold Obligations.WrittenWordsDecodeAsTheTableSays
  decide

end Sys2Proof
end

section
/-! PROOFS. Reset and construction (R50, R211), and how a step reaches the meaning of what it fetched (R105, R183, R185). -/

namespace Sys2Proof.Machine

/-! ### Reset and construction -/

/-- Settles O1: reset is the reference block's reset table. -/
theorem resetLeavesTheTableOfValues : Obligations.ResetLeavesTheTableOfValues := by
  unfold Obligations.ResetLeavesTheTableOfValues
  decide

/-- Settles O2: reset is a block constructed from a valid set. -/
theorem resetMeetsTheInvariant : Obligations.ResetMeetsTheInvariant :=
  inv_init (by decide) 0 []

theorem step_construct {p : Params} {s : State} {rest : List Event} (h : s.script = .construct p :: rest) :
    step s = if p.Valid then .next (State.init p s.clock rest) else .fault .configurationError := by
  simp [step_event h, eventFetch, Fetched.outcome, construct, afterHead, h]

/-- Settles O4: a valid set answers `State.init`, whose elements are the reset table's, and any other set the fault. -/
theorem constructionChecksTheParameters : Obligations.ConstructionChecksTheParameters := by
  refine fun p s rest h => ⟨fun hv => ?_, fun hv => by rw [step_construct h, if_neg hv]⟩
  have hstep : step s = .next (State.init p s.clock rest) := by rw [step_construct h, if_pos hv]
  refine ⟨hstep, inv_init hv _ _, fun t ht => ?_⟩
  obtain rfl : t = State.init p s.clock rest := next_eq_next.1 (hstep.symm.trans ht)
  simp [State.init]

/-! ### The three ways an instruction is fetched -/

theorem step_marker {s : State} {m : Marker} {rest : List Marker} (ht : decoderTurn s = true) (hp : s.ph = .zcdrain)
    (hz : s.zq = m :: rest) : step s = exec (decodeMarker m) { afterHead s with zq := rest } := by
  rw [step_decoder ht]
  simp [decoderFetch, afterHead, hp, hz, Fetched.outcome]

theorem step_host {s : State} {c : Ctx} {call : HostCall} {rest : List Event} (h : s.script = .host c call :: rest) :
    step s = (hostFetch c call (afterHead s)).outcome := by
  rw [step_event h, eventFetch]

/-- Settles O10: the three fetches of DISPATCH, ZCDRAIN and a host call. -/
theorem stepRunsTheDecodedInstruction : Obligations.StepRunsTheDecodedInstruction := by
  refine ⟨fun _ => step_dispatch, fun _ _ _ => step_marker, fun s c call i rest h hd hr => ?_⟩
  rw [step_host h, hostFetch, hd]
  simp [ready_afterHead, hr, Fetched.outcome]

/-! ### Host calls that name no operation -/

theorem decodeCall_of_nine_le {call : HostCall} (h : 9 ≤ call.op.toNat) : decodeCall call = .error .noSuchOperation := by
  unfold decodeCall
  split
  case h_10 => rfl
  all_goals omega

/-- Only the two set operations take a callback (R105). -/
theorem decodeCall_of_stray {call : HostCall} (hop : call.op.toNat ∈ [0, 1, 4, 5, 6, 7, 8]) (harg : call.arg ≠ none) :
    decodeCall call = .error .strayOperand := by
  obtain ⟨cb, hcb⟩ := Option.ne_none_iff_exists'.1 harg
  simp only [List.mem_cons, List.not_mem_nil, or_false] at hop
  rcases hop with h | h | h | h | h | h | h <;> simp [decodeCall, h, hcb, withoutOperand]

theorem step_badHostCall {s : State} {c : Ctx} {call : HostCall} {rest : List Event} {r : DecodeReject}
    (h : s.script = .host c call :: rest) (hd : decodeCall call = .error r) : step s = .refused (.badHostCall r) := by
  rw [step_host h, hostFetch, hd, Fetched.outcome]

/-- Settles O11: the decoder turns such a call away, and the fetch refuses it under that name. -/
theorem callsThatNameNoOperationAreRefused : Obligations.CallsThatNameNoOperationAreRefused :=
  fun _ _ _ _ h => ⟨fun hop => step_badHostCall h (decodeCall_of_nine_le hop),
    fun hop harg => step_badHostCall h (decodeCall_of_stray hop harg)⟩

end Sys2Proof.Machine
end

section
/-! PROOFS. The rest of the decoder loop (R183, R187 to R189, R241): the marker step, the two NOTIFY phases, the phases in which the
decoder rests, and a counter's increment. -/

namespace Sys2Proof.Machine

/-! ### ZCDRAIN -/

theorem step_drained {s : State} (ht : decoderTurn s = true) (hp : s.ph = .zcdrain) (hz : s.zq = []) :
    step s = .next { afterHead s with ph := .poll } :=
  step_of_decoderFetch ht (by simp [decoderFetch, afterHead, hp, hz, goTo])

/-- The marker step pops the oldest marker and takes it (R183). -/
theorem step_markerTaken {s : State} {m : Marker} {rest : List Marker} (ht : decoderTurn s = true) (hp : s.ph = .zcdrain)
    (hz : s.zq = m :: rest) : step s = .next (markerTaken { afterHead s with zq := rest }) := by
  rw [step_marker ht hp hz, decodeMarker, exec_zc]

/-- Settles O34: the two answers of ZCDRAIN, and the frame of a marker. -/
theorem everyMarkerIsDrainedBeforeThePoll : Obligations.EveryMarkerIsDrainedBeforeThePoll := by
  refine fun s ht hp => ⟨step_drained ht hp, fun m rest hz => ⟨_, step_markerTaken ht hp hz, ?_⟩⟩
  rw [markerTaken_frame]
  exact ⟨rfl, rfl, rfl, rfl⟩

/-! ### NOTIFY_LAMP and NOTIFY_SOL -/

theorem step_notifyLamp {s : State} (ht : decoderTurn s = true) (hp : s.ph = .notifyLamp) :
    step s = .next (notifyLampStep (afterHead s)) :=
  step_of_decoderFetch ht (by simp [decoderFetch, afterHead, hp])

theorem step_notifySol {s : State} (ht : decoderTurn s = true) (hp : s.ph = .notifySol) :
    step s = .next (notifySolStep (afterHead s)) :=
  step_of_decoderFetch ht (by simp [decoderFetch, afterHead, hp])

/-- Settles O36: nothing pending, a count with the slot unset, and a count with a call. -/
theorem notifyLampCountsAndCallsTheLampSlot : Obligations.NotifyLampCountsAndCallsTheLampSlot := by
  refine fun s ht hp => ⟨fun hl => ?_, fun hl hc => ?_, fun cb hl hc => ?_⟩ <;> rw [step_notifyLamp ht hp, notifyLampStep]
  · simp [afterHead, hl, goTo]
  · simp [afterHead, hl, hc, notify, goTo, countEvent]
  · simp [afterHead, hl, hc, notify, emit, goTo, countEvent]

/-- Settles O37: nothing pending, a count with the slot unset, and a count with a call. -/
theorem notifySolCountsAndCallsTheSolenoidSlot : Obligations.NotifySolCountsAndCallsTheSolenoidSlot := by
  refine fun s ht hp => ⟨fun hl => ?_, fun hl hc => ?_, fun cb hl hc => ?_⟩ <;> rw [step_notifySol ht hp, notifySolStep]
  · simp [afterHead, hl, goTo]
  · simp [afterHead, hl, hc, notify, goTo, countEvent]
  · simp [afterHead, hl, hc, notify, emit, goTo, countEvent]

/-! ### CB_LAMP and CB_SOL -/

theorem step_inCallback {s : State} (ht : decoderTurn s = true) (hp : s.ph = .cbLamp ∨ s.ph = .cbSol) :
    step s = .next (afterHead s) :=
  step_of_decoderFetch ht (by rcases hp with hp | hp <;> simp [decoderFetch, afterHead, hp])

theorem inCallback_iff {s : State} : inCallback s = true ↔ s.ph = .cbLamp ∨ s.ph = .cbSol := by
  simp [inCallback]

/-- A callback that is inside no getter and holds no lock returns to where the phase says (R189, R241). -/
theorem step_callbackReturn {s t : State} {rest : List Event} (h : s.script = .callbackReturn :: rest)
    (hcall : callOf .callback s = none) (hlamp : s.lampLock ≠ some .callback) (hsol : s.solLock ≠ some .callback)
    (ht : callbackReturned (afterHead s) = some t) : step s = .next t := by
  have hin : inCallback s = true := inCallback_iff.2 ((callbackReturned_cases ht).imp And.left And.left)
  have hready : ready .callback .start (afterHead s) = true := by
    rw [ready_afterHead]; simp [ready, hcall, hlamp, hsol, hin]
  rw [step_event h, eventFetch, Fetched.outcome, callbackReturn, ht]
  simp [hready]

/-- Settles O38: the decoder's rest in the three phases, and the two returns. -/
theorem theDecoderWaitsForACallbackToReturn : Obligations.TheDecoderWaitsForACallbackToReturn := by
  refine ⟨fun s ht hp => ?_, fun s rest h hcall hlamp hsol => ⟨fun hp => ?_, fun hp => ?_⟩⟩
  · rcases hp with hp | hp | hp
    · exact step_inCallback ht (.inl hp)
    · exact step_inCallback ht (.inr hp)
    · exact step_stopped ht hp
  · exact step_callbackReturn h hcall hlamp hsol (by simp [callbackReturned, afterHead, hp, goTo])
  · exact step_callbackReturn h hcall hlamp hsol (by simp [callbackReturned, afterHead, hp, goTo])

/-! ### Counters -/

theorem bump_below {p : Params} {b n : Nat} (h : p.cntw = some b) (hn : n < 2 ^ b - 1) : bump p n = n + 1 := by
  simp [bump, h, hn]

theorem bump_at_top {p : Params} {b n : Nat} (h : p.cntw = some b) (hn : 2 ^ b - 1 ≤ n) : bump p n = n := by
  simp [bump, h, Nat.not_lt.2 hn]

/-- Settles O32: the increment without a width, below the top of a width and at it. -/
theorem countersAddOneOrSaturate : Obligations.CountersAddOneOrSaturate :=
  fun _ _ => ⟨fun h => bump_unbounded h _, fun _ h => ⟨bump_below h, bump_at_top h⟩, le_bump _ _⟩

end Sys2Proof.Machine
end

section
/-! PROOFS. Who writes what (R124, R190, R191, R214, R244, R245): for each field, the moves that write it, and from them the
statements about one step of any agent. -/

namespace Sys2Proof.Machine

/-! ### What the schedule says of the acting agent -/

/-- The schedule entry is a host call of the operation i. -/
def CallsFor (i : Instr) (e : Event) : Prop := ∃ c call, e = .host c call ∧ decodeCall call = .ok i

theorem issues_of_callsFor {i : Instr} {s : State} {e : Event} {rest : List Event} (hs : s.script = e :: rest)
    (h : CallsFor i e) : Issues i s := by
  obtain ⟨c, call, rfl, hd⟩ := h
  exact ⟨c, call, rest, hs, hd⟩

theorem callsFor_host {i : Instr} {c : Ctx} {call : HostCall} (h : decodeCall call = .ok i) :
    CallsFor i (.host c call) := ⟨c, call, rfl, h⟩

/-- A step other than a construction: the decoder's move, or a move of another agent that is no construction. -/
theorem step_move_running {s t : State} (hc : constructsNext s = false) (h : step s = .next t) :
    (decoderTurn s = true ∧ DecoderMove (afterHead s) t) ∨
      ∃ e rest, s.script = e :: rest ∧ decoderTurn s = false ∧ (∀ p, e ≠ .construct p) ∧ EventMove (afterHead s) e t :=
  (step_move h).imp_right fun ⟨e, rest, hs, he, hm⟩ =>
    ⟨e, rest, hs, decoderTurn_eq_false hs he, ne_construct_of_constructsNext hc hs, hm⟩

/-! ### The bus-derived state and the decoder's registers -/

/-- t holds the store, the counts and the parameters of s (R214, R246). -/
structure KeepsBusState (s t : State) : Prop where
  lamp : t.lamp = s.lamp
  sol : t.sol = s.sol
  bright : t.bright = s.bright
  eventCount : t.eventCount = s.eventCount
  addressErrorCount : t.addressErrorCount = s.addressErrorCount
  maxDepth : t.maxDepth = s.maxDepth
  rowsDetected : t.rowsDetected = s.rowsDetected
  colsDetected : t.colsDetected = s.colsDetected
  zcDetected : t.zcDetected = s.zcDetected
  triacDetected : t.triacDetected = s.triacDetected
  params : t.params = s.params

/-- t holds the decoder's own registers of s, but for the phase (R244). -/
structure KeepsRegisters (s t : State) : Prop where
  pendingCol : t.pendingCol = s.pendingCol
  latched : t.latched = s.latched
  acc : t.acc = s.acc
  zcTime : t.zcTime = s.zcTime
  zcWin : t.zcWin = s.zcWin
  lightsChanged : t.lightsChanged = s.lightsChanged
  solChanged : t.solChanged = s.solChanged
  cur : t.cur = s.cur

/-- No other agent writes what the decoder derives from the bus. -/
theorem EventMove.keepsBusState {s t : State} {e : Event} (h : EventMove s e t) (hc : ∀ p, e ≠ .construct p) :
    KeepsBusState s t := by
  cases h
  case constructed p _ => exact absurd rfl (hc p)
  all_goals constructor <;> simp [started]

/-- A register of the decoder is written by the decoder or cleared by a `start` (R200). -/
theorem EventMove.keepsRegisters {s t : State} {e : Event} (h : EventMove s e t) (hc : ∀ p, e ≠ .construct p) :
    KeepsRegisters s t ∨ (t.pendingCol = none ∧ CallsFor .start e) := by
  cases h
  case constructed p _ => exact absurd rfl (hc p)
  case start c call _ hd _ _ => exact .inr ⟨rfl, callsFor_host hd⟩
  all_goals exact .inl (by constructor <;> simp)

/-- The queues are filled by the producers and emptied by the decoder and by a `start`. -/
theorem EventMove.queues_eq {s t : State} {e : Event} (h : EventMove s e t) (hc : ∀ p, e ≠ .construct p)
    (hw : ∀ raw, e ≠ .strobe raw) (hm : ∀ m, e ≠ .zeroCross m) :
    (t.dq = s.dq ∧ t.zq = s.zq) ∨ CallsFor .start e := by
  cases h
  case constructed p _ => exact absurd rfl (hc p)
  case strobe raw _ => exact absurd rfl (hw raw)
  case zeroCross m _ => exact absurd rfl (hm m)
  case start c call _ hd _ _ => exact .inr (callsFor_host hd)
  all_goals exact .inl (by simp)

/-- Settles O57: a host's action is a move of no producer and no construction, so it keeps the bus-derived state, and but for
a `start` the decoder's registers and the queues. -/
theorem hostActionsWriteNoBusDerivedState : Obligations.HostActionsWriteNoBusDerivedState := by
  intro s t hh h
  rcases step_move h with ⟨hd, -⟩ | ⟨e, rest, hs, -, hm⟩
  · cases hscript : s.script with
    | nil => simp [hostTurn, hscript] at hh
    | cons e rest =>
      obtain rfl : e = .decoder := by simpa [decoderTurn, hscript] using hd
      simp [hostTurn, hscript] at hh
  · have hc (p : Params) : e ≠ .construct p := by rintro rfl; simp [hostTurn, hs] at hh
    have hw (raw : BusWord) : e ≠ .strobe raw := by rintro rfl; simp [hostTurn, hs] at hh
    have hz (m : Marker) : e ≠ .zeroCross m := by rintro rfl; simp [hostTurn, hs] at hh
    have hb := hm.keepsBusState hc
    refine ⟨hb.lamp, hb.sol, hb.bright, hb.eventCount, hb.addressErrorCount, hb.maxDepth, hb.rowsDetected, hb.colsDetected,
      hb.zcDetected, hb.triacDetected, hb.params, ?_⟩
    rcases hm.keepsRegisters hc with hp | ⟨-, hstart⟩
    · rcases hm.queues_eq hc hw hz with ⟨hdq, hzq⟩ | hstart
      · exact .inr ⟨hp.pendingCol, hp.latched, hp.acc, hp.zcTime, hp.zcWin, hp.lightsChanged, hp.solChanged, hp.cur,
          hdq, hzq⟩
      · exact .inl (issues_of_callsFor hs hstart)
    · exact .inl (issues_of_callsFor hs hstart)

/-! ### The clock and the parameters -/

theorem DecoderMove.clock_params_eq {s t : State} (h : DecoderMove s t) : t.clock = s.clock ∧ t.params = s.params := by
  cases h <;> simp

theorem EventMove.clock_le {s t : State} {e : Event} (h : EventMove s e t) : s.clock ≤ t.clock := by
  cases h
  case tick us => exact Nat.le_add_right _ _
  all_goals simp [started, State.init]

/-- Settles O59: only a tick moves the clock, forwards, and only a construction replaces the parameters. -/
theorem timeAndParametersAreNotRewritten : Obligations.TimeAndParametersAreNotRewritten := by
  intro s t h
  rcases step_move h with ⟨-, hm⟩ | ⟨e, rest, hs, -, hm⟩
  · obtain ⟨hclock, hparams⟩ := hm.clock_params_eq
    exact ⟨hclock.ge, fun _ => hparams⟩
  · exact ⟨hm.clock_le, fun hc => (hm.keepsBusState (ne_construct_of_constructsNext hc hs)).params⟩

/-! ### The lamp bytes and the pending column -/

/-- The decoder writes a lamp byte only where an `LROW` stores (R124). -/
theorem DecoderMove.lamp_cases {s t : State} (h : DecoderMove s t) :
    t.lamp = s.lamp ∨ s.ph = .dispatch ∧ s.lampLock = none ∧ ∃ (c : Fin 8) (d : Byte),
      decodeWord s.params s.cur = .lrow d ∧ s.pendingCol = some c ∧ s.lamp[c] ≠ d ∧ t.lamp = s.lamp.set c d := by
  cases h
  case lrowStored c d hp hi hc hd hl => exact .inr ⟨hp, hl, c, d, hi, hc, hd, rfl⟩
  all_goals exact .inl (by simp)

theorem step_lamp_cases {s t : State} (hc : constructsNext s = false) (h : step s = .next t) :
    t.lamp = s.lamp ∨ decoderTurn s = true ∧ s.ph = .dispatch ∧ s.lampLock = none ∧ ∃ (c : Fin 8) (d : Byte),
      decodeWord s.params s.cur = .lrow d ∧ s.pendingCol = some c ∧ s.lamp[c] ≠ d ∧ t.lamp = s.lamp.set c d := by
  rcases step_move_running hc h with ⟨ht, hm⟩ | ⟨e, rest, -, -, hne, hm⟩
  · exact hm.lamp_cases.imp_right fun hl => ⟨ht, hl⟩
  · exact .inl (hm.keepsBusState hne).lamp

/-- A register that a store of the array changes is the stored one, and holds the new byte. -/
theorem set_changes {n : Nat} {v : Vector Byte n} {i j : Fin n} {d : Byte} (h : (v.set i d)[j] ≠ v[j]) :
    i = j ∧ (v.set i d)[j] = d := by
  by_cases hij : i = j
  · subst hij; exact ⟨rfl, by simp⟩
  · exact absurd (by simp [Fin.val_ne_of_ne hij]) h

/-- Settles O15: of the ways a step can go only a storing `LROW` writes `lamp`, and it writes its column. -/
theorem onlyAnLrowStepChangesALampByte : Obligations.OnlyAnLrowStepChangesALampByte := by
  intro s t c hc h
  have forward (hne : t.lamp[c] ≠ s.lamp[c]) : decoderTurn s = true ∧ s.ph = .dispatch ∧ s.lampLock = none ∧
      decodeWord s.params s.cur = .lrow t.lamp[c] ∧ s.pendingCol = some c := by
    rcases step_lamp_cases hc h with heq | ⟨ht, hp, hl, c', d, hi, hcol, -, hlamp⟩
    · exact absurd (by rw [heq]) hne
    · rw [hlamp] at hne ⊢
      obtain ⟨rfl, hbyte⟩ := set_changes hne
      exact ⟨ht, hp, hl, by rw [hbyte, hi], hcol⟩
  refine ⟨⟨fun hne => ?_, fun ⟨ht, hp, hl, d, hi, hcol, hd⟩ => ?_⟩, fun hne => ?_⟩
  · obtain ⟨ht, hp, hl, hi, hcol⟩ := forward hne
    exact ⟨ht, hp, hl, _, hi, hcol, hne⟩
  · have hstore : lrowStore d (afterHead s) = some c := lrowStore_eq_some.2 ⟨hcol, hd.symm⟩
    rw [step_dispatch ht hp, hi, exec_lrow_of_lrowStore_some hstore hl, next_eq_next] at h
    subst h
    simpa [afterHead] using hd
  · obtain ⟨-, -, -, hi, -⟩ := forward hne
    exact hi

/-- The decoder writes the pending column only at an `LCOL` or an `LROW` (R123). -/
theorem DecoderMove.pendingCol_cases {s t : State} (h : DecoderMove s t) :
    t.pendingCol = s.pendingCol ∨ s.ph = .dispatch ∧
      ∃ d, decodeWord s.params s.cur = .lcol d ∨ decodeWord s.params s.cur = .lrow d := by
  cases h
  case lcol d hp hi => exact .inr ⟨hp, d, .inl hi⟩
  case lrowDropped d hp hi _ => exact .inr ⟨hp, d, .inr hi⟩
  case lrowStored c d hp hi _ _ _ => exact .inr ⟨hp, d, .inr hi⟩
  all_goals exact .inl (by simp)

/-- Settles O16: the decoder's two writers, and `start` among the other agents' moves. -/
theorem onlyLampWordsAndStartChangeThePendingColumn : Obligations.OnlyLampWordsAndStartChangeThePendingColumn := by
  intro s t hc h hne
  rcases step_move_running hc h with ⟨ht, hm⟩ | ⟨e, rest, hs, -, hnc, hm⟩
  · rcases hm.pendingCol_cases with heq | hw
    · exact absurd heq hne
    · exact .inl ⟨ht, hw⟩
  · rcases hm.keepsRegisters hnc with hp | ⟨hnone, hstart⟩
    · exact absurd hp.pendingCol hne
    · exact .inr ⟨hnone, issues_of_callsFor hs hstart⟩

/-! ### The solenoid banks -/

/-- The decoder writes a bank only where the bank's own word stores (R140). -/
theorem DecoderMove.sol_cases {s t : State} (h : DecoderMove s t) :
    t.sol = s.sol ∨ s.ph = .dispatch ∧ s.solLock = none ∧ ∃ (i : Fin 4) (d : Byte),
      decodeWord s.params s.cur = solWord i d ∧ s.sol[i] ≠ d ∧ t.sol = s.sol.set i d := by
  cases h
  case solStored i d hp hi hd hl => exact .inr ⟨hp, hl, i, d, hi, hd, rfl⟩
  all_goals exact .inl (by simp)

theorem step_sol_cases {s t : State} (hc : constructsNext s = false) (h : step s = .next t) :
    t.sol = s.sol ∨ decoderTurn s = true ∧ s.ph = .dispatch ∧ s.solLock = none ∧ ∃ (i : Fin 4) (d : Byte),
      decodeWord s.params s.cur = solWord i d ∧ s.sol[i] ≠ d ∧ t.sol = s.sol.set i d := by
  rcases step_move_running hc h with ⟨ht, hm⟩ | ⟨e, rest, -, -, hne, hm⟩
  · exact hm.sol_cases.imp_right fun hl => ⟨ht, hl⟩
  · exact .inl (hm.keepsBusState hne).sol

/-- Settles O19: of the ways a step can go only a storing word of a bank writes `sol`, and it writes its bank. -/
theorem onlyItsOwnWordChangesASolenoidBank : Obligations.OnlyItsOwnWordChangesASolenoidBank := by
  intro s t i hc h
  have forward (hne : t.sol[i] ≠ s.sol[i]) : decoderTurn s = true ∧ s.ph = .dispatch ∧ s.solLock = none ∧
      decodeWord s.params s.cur = solWord i t.sol[i] := by
    rcases step_sol_cases hc h with heq | ⟨ht, hp, hl, i', d, hi, -, hsol⟩
    · exact absurd (by rw [heq]) hne
    · rw [hsol] at hne ⊢
      obtain ⟨rfl, hbyte⟩ := set_changes hne
      exact ⟨ht, hp, hl, by rw [hbyte, hi]⟩
  refine ⟨⟨fun hne => ?_, fun ⟨ht, hp, hl, d, hi, hd⟩ => ?_⟩, fun hne => ?_⟩
  · obtain ⟨ht, hp, hl, hi⟩ := forward hne
    exact ⟨ht, hp, hl, _, hi, hne⟩
  · have hdiffers : (afterHead s).sol[i] ≠ d := hd.symm
    rw [step_dispatch ht hp, hi, exec_solWord_of_differs hdiffers hl, next_eq_next] at h
    subst h
    simpa [afterHead] using hd
  · obtain ⟨-, -, -, hi⟩ := forward hne
    exact hi

/-! ### The published levels -/

/-- The decoder publishes levels only in the marker step of the W-th marker (R155). -/
theorem DecoderMove.bright_cases {s t : State} (h : DecoderMove s t) :
    t.bright = s.bright ∨ s.ph = .zcdrain ∧ s.zq ≠ [] ∧ s.zcWin + 1 = s.params.w := by
  cases h
  case marker m rest hp hz =>
    by_cases hw : s.zcWin + 1 = s.params.w
    · exact .inr ⟨hp, by simp [hz], hw⟩
    · exact .inl (markerTaken_bright_of_not_last (s := { s with zq := rest }) hw)
  all_goals exact .inl rfl

/-- Settles O29: of the ways a step can go only the W-th marker's writes `bright`. -/
theorem levelsArePublishedOnlyAtARollover : Obligations.LevelsArePublishedOnlyAtARollover := by
  intro s t hc h hne
  rcases step_move_running hc h with ⟨ht, hm⟩ | ⟨e, rest, -, -, hnc, hm⟩
  · rcases hm.bright_cases with heq | hw
    · exact absurd heq hne
    · exact ⟨ht, hw⟩
  · exact absurd (hm.keepsBusState hnc).bright hne

/-! ### The two counts of R31 and R32 -/

/-- The decoder counts an event where it pops a word or finds a change pending (R190). -/
abbrev CountsEvent (s : State) : Prop :=
  (s.ph = .poll ∧ s.dq ≠ []) ∨ (s.ph = .notifyLamp ∧ s.lightsChanged = true) ∨ (s.ph = .notifySol ∧ s.solChanged = true)

theorem DecoderMove.eventCount_cases {s t : State} (h : DecoderMove s t) :
    (CountsEvent s ∧ t.eventCount = bump s.params s.eventCount) ∨ (¬CountsEvent s ∧ t.eventCount = s.eventCount) := by
  cases h
  case polled hp hq => exact .inl ⟨.inl ⟨hp, by simp [hq]⟩, rfl⟩
  case lampCounted hp hl _ => exact .inl ⟨.inr (.inl ⟨hp, hl⟩), rfl⟩
  case lampCalled hp hl _ => exact .inl ⟨.inr (.inl ⟨hp, hl⟩), rfl⟩
  case solCounted hp hl _ => exact .inl ⟨.inr (.inr ⟨hp, hl⟩), rfl⟩
  case solCalled hp hl _ => exact .inl ⟨.inr (.inr ⟨hp, hl⟩), rfl⟩
  case rests hp => exact .inr ⟨by rcases hp with hp | hp | hp <;> simp [CountsEvent, hp], rfl⟩
  all_goals exact .inr ⟨by simp [CountsEvent, *], by simp⟩

/-- Settles O39: the decoder counts in the three situations of R190, and no other agent counts. -/
theorem eventCountLawOfOneStep : Obligations.EventCountLawOfOneStep := by
  intro s t hc h
  rcases step_move_running hc h with ⟨ht, hm⟩ | ⟨e, rest, -, ht, hnc, hm⟩
  · rcases hm.eventCount_cases with ⟨hcounts, heq⟩ | ⟨hnot, heq⟩
    · exact heq.trans (if_pos ⟨ht, hcounts⟩).symm
    · exact heq.trans (if_neg fun hcounts => hnot hcounts.2).symm
  · rw [if_neg (by simp [ht])]
    exact (hm.keepsBusState hnc).eventCount

theorem targetOf_of_decodeWord_invalid {p : Params} {w : BusWord} {a d : Byte} (h : decodeWord p w = .invalid a d) :
    targetOf p w = .invalid := by
  unfold decodeWord at h
  split at h <;> simp_all

/-- The decoder counts an address error only at an `INVALID` word (R186). -/
theorem DecoderMove.addressErrorCount_cases {s t : State} (h : DecoderMove s t) :
    t.addressErrorCount = s.addressErrorCount ∨ s.ph = .dispatch ∧ targetOf s.params s.cur = .invalid := by
  cases h
  case invalid a d hp hi => exact .inr ⟨hp, targetOf_of_decodeWord_invalid hi⟩
  all_goals exact .inl (by simp)

theorem step_invalid_addressErrorCount {s t : State} (ht : decoderTurn s = true) (hp : s.ph = .dispatch)
    (hT : targetOf s.params s.cur = .invalid) (h : step s = .next t) :
    t.addressErrorCount = bump s.params s.addressErrorCount := by
  rw [step_of_invalid_target ht hp hT, exec_invalid, next_eq_next] at h
  rw [h]
  rfl

/-- Settles O40: an `INVALID` word at DISPATCH is the one writer, and it adds one increment. -/
theorem addressErrorCountLawOfOneStep : Obligations.AddressErrorCountLawOfOneStep := by
  refine ⟨rfl, fun s t hc h => ⟨fun hnot => ?_, fun ht hp hT => ?_⟩⟩
  · rcases step_move_running hc h with ⟨ht, hm⟩ | ⟨e, rest, -, -, hnc, hm⟩
    · exact hm.addressErrorCount_cases.resolve_right fun hw => hnot ⟨ht, hw⟩
    · exact (hm.keepsBusState hnc).addressErrorCount
  · rw [step_invalid_addressErrorCount ht hp hT h]
    exact ⟨fun hw => bump_unbounded hw _, fun b hw => ⟨bump_below hw, bump_at_top hw⟩⟩

/-! ### The control state -/

/-- t holds the control bits, slots and locks of s, but for `running`. -/
structure KeepsControl (s t : State) : Prop where
  enable : t.enable = s.enable
  samplerActive : t.samplerActive = s.samplerActive
  lampCb : t.lampCb = s.lampCb
  solCb : t.solCb = s.solCb
  lampLock : t.lampLock = s.lampLock
  solLock : t.solLock = s.solLock

theorem DecoderMove.keepsControl {s t : State} (h : DecoderMove s t) : KeepsControl s t := by
  cases h <;> constructor <;> simp

theorem DecoderMove.running_cases {s t : State} (h : DecoderMove s t) :
    t.running = s.running ∨ t.running = false ∧ s.ph = .check ∧ s.enable = false := by
  cases h
  case stops hp he => exact .inr ⟨rfl, hp, he⟩
  all_goals exact .inl (by simp)

/-- The getter that reads a group as a snapshot under its lock (R70, R205, R206); group GI has no lock. -/
def snapshotGetter : Group → Instr
  | .lamp => .getLights
  | .sol => .getSolenoids
  | .gi => .getGi

theorem lockOf_setLock {g : Group} (hg : g ≠ .gi) (c : Option Ctx) (s : State) : lockOf (setLock g c s) g = c := by
  cases g with
  | lamp | sol => rfl
  | gi => exact absurd rfl hg

theorem lockOf_setLock_other {g g' : Group} (h : g ≠ g') (c : Option Ctx) (s : State) :
    lockOf (setLock g' c s) g = lockOf s g := by
  cases g <;> cases g' <;> simp_all [lockOf, setLock]

section
variable {s t : State} {e : Event} (h : EventMove s e t) (hc : ∀ p, e ≠ .construct p)
include h hc

theorem EventMove.enable_cases :
    t.enable = s.enable ∨ (t.enable = true ∧ CallsFor .start e) ∨ (t.enable = false ∧ CallsFor .stop e) := by
  cases h
  case constructed p _ => exact absurd rfl (hc p)
  case start c call _ hd _ _ => exact .inr (.inl ⟨rfl, callsFor_host hd⟩)
  case stopIdle c call _ hd _ => exact .inr (.inr ⟨rfl, callsFor_host hd⟩)
  case stopWaits c call _ hd _ => exact .inr (.inr ⟨rfl, callsFor_host hd⟩)
  all_goals exact .inl (by simp)

theorem EventMove.running_cases : t.running = s.running ∨ (t.running = true ∧ CallsFor .start e) := by
  cases h
  case constructed p _ => exact absurd rfl (hc p)
  case start c call _ hd _ _ => exact .inr ⟨rfl, callsFor_host hd⟩
  all_goals exact .inl (by simp)

theorem EventMove.samplerActive_cases :
    t.samplerActive = s.samplerActive ∨ (t.samplerActive = true ∧ CallsFor .start e) ∨
      (t.samplerActive = false ∧ s.running = false ∧
        (CallsFor .stop e ∨ ∃ c, e = .stopPoll c ∧ callOf c s = some .stopping)) := by
  cases h
  case constructed p _ => exact absurd rfl (hc p)
  case start c call _ hd _ _ => exact .inr (.inl ⟨rfl, callsFor_host hd⟩)
  case stopIdle c call _ hd hr => exact .inr (.inr ⟨rfl, hr, .inl (callsFor_host hd)⟩)
  case stopReturns c hcall hr => exact .inr (.inr ⟨rfl, hr, .inr ⟨c, rfl, hcall⟩⟩)
  all_goals exact .inl (by simp)

theorem EventMove.lampCb_cases : t.lampCb = s.lampCb ∨ CallsFor (.setLampNotify t.lampCb) e := by
  cases h
  case constructed p _ => exact absurd rfl (hc p)
  case setLampNotify c call cb hd => exact .inr (callsFor_host hd)
  all_goals exact .inl (by simp [started])

theorem EventMove.solCb_cases : t.solCb = s.solCb ∨ CallsFor (.setSolNotify t.solCb) e := by
  cases h
  case constructed p _ => exact absurd rfl (hc p)
  case setSolNotify c call cb hd => exact .inr (callsFor_host hd)
  all_goals exact .inl (by simp [started])

/-- A group's lock is taken by entering its getter and given back by the getter itself (R70). -/
theorem EventMove.lockOf_cases (g : Group) :
    lockOf t g = lockOf s g ∨ ∃ c, (lockOf s g = none ∧ lockOf t g = some c ∧ e = .enterGetter c g) ∨
      (lockOf s g = some c ∧ lockOf t g = none ∧
        ∃ call, e = .host c call ∧ decodeCall call = .ok (snapshotGetter g)) := by
  cases h
  case constructed p _ => exact absurd rfl (hc p)
  case getLights c call hd hl =>
    cases g with
    | lamp => exact hl.imp (fun hl => hl.symm) fun hl => ⟨c, .inr ⟨hl, rfl, call, rfl, hd⟩⟩
    | sol | gi => exact .inl rfl
  case getSolenoids c call hd hl =>
    cases g with
    | sol => exact hl.imp (fun hl => hl.symm) fun hl => ⟨c, .inr ⟨hl, rfl, call, rfl, hd⟩⟩
    | lamp | gi => exact .inl rfl
  case entersGetter c g' hg hl =>
    by_cases hgg : g = g'
    · subst hgg; exact .inr ⟨c, .inl ⟨hl, lockOf_setLock hg _ s, rfl⟩⟩
    · exact .inl (lockOf_setLock_other hgg _ s)
  all_goals exact .inl (by cases g <;> simp [lockOf, started])

end

/-- Settles O42: the decoder writes `running` only, at CHECK; each other element has its own operations as writers. -/
theorem onlyItsWritersChangeTheControlState : Obligations.OnlyItsWritersChangeTheControlState := by
  intro s t hc h
  rcases step_move_running hc h with ⟨ht, hm⟩ | ⟨e, rest, hs, -, hnc, hm⟩
  · have hk := hm.keepsControl
    refine ⟨absurd hk.enable, fun hne => ?_, absurd hk.samplerActive, absurd hk.lampCb, absurd hk.solCb,
      absurd hk.lampLock, absurd hk.solLock⟩
    obtain ⟨hr, hp, he⟩ := hm.running_cases.resolve_left hne
    exact .inr ⟨hr, ht, hp, he⟩
  · refine ⟨fun hne => ?_, fun hne => ?_, fun hne => ?_, fun hne => ?_, fun hne => ?_, fun hne => ?_, fun hne => ?_⟩
    · exact ((hm.enable_cases hnc).resolve_left hne).imp (And.imp_right (issues_of_callsFor hs))
        (And.imp_right (issues_of_callsFor hs))
    · exact .inl (((hm.running_cases hnc).resolve_left hne).imp_right (issues_of_callsFor hs))
    · rcases (hm.samplerActive_cases hnc).resolve_left hne with ⟨ha, hstart⟩ | ⟨ha, hr, hstop | ⟨c, rfl, hcall⟩⟩
      · exact .inl ⟨ha, issues_of_callsFor hs hstart⟩
      · exact .inr ⟨ha, hr, .inl (issues_of_callsFor hs hstop)⟩
      · exact .inr ⟨ha, hr, .inr ⟨c, rest, hs, hcall⟩⟩
    · exact ⟨_, issues_of_callsFor hs ((hm.lampCb_cases hnc).resolve_left hne), rfl⟩
    · exact ⟨_, issues_of_callsFor hs ((hm.solCb_cases hnc).resolve_left hne), rfl⟩
    · obtain ⟨c, ⟨hfree, htaken, rfl⟩ | ⟨hheld, hfreed, call, rfl, hd⟩⟩ := (hm.lockOf_cases hnc .lamp).resolve_left hne
      · exact ⟨c, rest, .inl ⟨hfree, htaken, hs⟩⟩
      · exact ⟨c, rest, .inr ⟨hheld, hfreed, call, hs, hd⟩⟩
    · obtain ⟨c, ⟨hfree, htaken, rfl⟩ | ⟨hheld, hfreed, call, rfl, hd⟩⟩ := (hm.lockOf_cases hnc .sol).resolve_left hne
      · exact ⟨c, rest, .inl ⟨hfree, htaken, hs⟩⟩
      · exact ⟨c, rest, .inr ⟨hheld, hfreed, call, hs, hd⟩⟩

/-! ### What the host sees -/

/-- The decoder calls a callback only where it finds its change pending and its slot set (R237, R238). -/
theorem DecoderMove.out_cases {s t : State} (h : DecoderMove s t) :
    t.out = s.out ∨
      (∃ cb, s.ph = .notifyLamp ∧ s.lightsChanged = true ∧ s.lampCb = some cb ∧ t.out = .lampCall cb :: s.out) ∨
      (∃ cb, s.ph = .notifySol ∧ s.solChanged = true ∧ s.solCb = some cb ∧ t.out = .solCall cb :: s.out) := by
  cases h
  case lampCalled cb hp hl hc => exact .inr (.inl ⟨cb, hp, hl, hc, rfl⟩)
  case solCalled cb hp hl hc => exact .inr (.inr ⟨cb, hp, hl, hc, rfl⟩)
  all_goals exact .inl (by simp)

/-- No other agent calls a callback; the getters return values. -/
theorem EventMove.out_cases {s t : State} {e : Event} (h : EventMove s e t) (hc : ∀ p, e ≠ .construct p) :
    t.out = s.out ∨ ∃ o, t.out = o :: s.out ∧ ∀ cb, o ≠ .lampCall cb ∧ o ≠ .solCall cb := by
  cases h
  case constructed p _ => exact absurd rfl (hc p)
  case getLights => exact .inr ⟨_, rfl, by simp⟩
  case getSolenoids => exact .inr ⟨_, rfl, by simp⟩
  case giReturns => exact .inr ⟨_, rfl, by simp⟩
  case statReturns => exact .inr ⟨_, rfl, by simp⟩
  all_goals exact .inl (by simp [started])

/-- The step calls cb of the lamp slot (R237, D27). -/
abbrev CallsLampSlot (s : State) (cb : Callback) : Prop :=
  decoderTurn s = true ∧ s.ph = .notifyLamp ∧ s.lightsChanged = true ∧ s.lampCb = some cb

/-- The step calls cb of the solenoid slot (R238, D27). -/
abbrev CallsSolSlot (s : State) (cb : Callback) : Prop :=
  decoderTurn s = true ∧ s.ph = .notifySol ∧ s.solChanged = true ∧ s.solCb = some cb

theorem step_out_cases {s t : State} (hc : constructsNext s = false) (h : step s = .next t) :
    t.out = s.out ∨ (∃ cb, CallsLampSlot s cb ∧ t.out = .lampCall cb :: s.out) ∨
      (∃ cb, CallsSolSlot s cb ∧ t.out = .solCall cb :: s.out) ∨
      ∃ o, t.out = o :: s.out ∧ ∀ cb, o ≠ .lampCall cb ∧ o ≠ .solCall cb := by
  rcases step_move_running hc h with ⟨ht, hm⟩ | ⟨e, rest, -, -, hnc, hm⟩
  · rcases hm.out_cases with ho | ⟨cb, hp, hl, hcb, ho⟩ | ⟨cb, hp, hl, hcb, ho⟩
    · exact .inl ho
    · exact .inr (.inl ⟨cb, ⟨ht, hp, hl, hcb⟩, ho⟩)
    · exact .inr (.inr (.inl ⟨cb, ⟨ht, hp, hl, hcb⟩, ho⟩))
  · exact (hm.out_cases hnc).imp_right fun ho => .inr (.inr ho)

theorem out_of_callsLampSlot {s t : State} {cb : Callback} (hcall : CallsLampSlot s cb) (h : step s = .next t) :
    t.out = .lampCall cb :: s.out := by
  obtain ⟨ht, hp, hl, hcb⟩ := hcall
  obtain ⟨-, -, hcalls⟩ := notifyLampCountsAndCallsTheLampSlot s ht hp
  rw [next_eq_next.1 ((hcalls cb hl hcb).symm.trans h)]

theorem out_of_callsSolSlot {s t : State} {cb : Callback} (hcall : CallsSolSlot s cb) (h : step s = .next t) :
    t.out = .solCall cb :: s.out := by
  obtain ⟨ht, hp, hl, hcb⟩ := hcall
  obtain ⟨-, -, hcalls⟩ := notifySolCountsAndCallsTheSolenoidSlot s ht hp
  rw [next_eq_next.1 ((hcalls cb hl hcb).symm.trans h)]

/-- Settles O43: the NOTIFY steps answer the calls, and every other output is a getter's value. -/
theorem callbacksAreCalledOnlyForAPendingChange : Obligations.CallbacksAreCalledOnlyForAPendingChange := by
  intro s t cb hc h
  refine ⟨⟨fun hn => ?_, fun hcall => out_of_callsLampSlot hcall h⟩,
    ⟨fun hn => ?_, fun hcall => out_of_callsSolSlot hcall h⟩, ?_⟩
  · rcases step_out_cases hc h with ho | ⟨cb', hcall, ho⟩ | ⟨cb', -, ho⟩ | ⟨o, ho, hno⟩ <;> rw [ho] at hn
    · simp at hn
    · obtain rfl : cb' = cb := by simpa using hn
      exact hcall
    · simp at hn
    · exact absurd (List.cons.inj hn).1 (hno cb).1
  · rcases step_out_cases hc h with ho | ⟨cb', -, ho⟩ | ⟨cb', hcall, ho⟩ | ⟨o, ho, hno⟩ <;> rw [ho] at hn
    · simp at hn
    · simp at hn
    · obtain rfl : cb' = cb := by simpa using hn
      exact hcall
    · exact absurd (List.cons.inj hn).1 (hno cb).2
  · rcases step_out_cases hc h with ho | ⟨cb', -, ho⟩ | ⟨cb', -, ho⟩ | ⟨o, ho, -⟩
    exacts [.inl ho, .inr ⟨_, ho⟩, .inr ⟨_, ho⟩, .inr ⟨o, ho⟩]

/-! ### STOPPED -/

theorem DecoderMove.ph_stopped {s t : State} (h : DecoderMove s t) (hs : s.ph ≠ .stopped) (ht : t.ph = .stopped) :
    s.ph = .check ∧ s.enable = false := by
  cases h
  case stops hp he => exact ⟨hp, he⟩
  all_goals simp_all

theorem EventMove.ph_ne_stopped {s t : State} {e : Event} (h : EventMove s e t) (hc : ∀ p, e ≠ .construct p)
    (hs : s.ph ≠ .stopped) : t.ph ≠ .stopped := by
  cases h
  case constructed p _ => exact absurd rfl (hc p)
  case start => simp [started]
  case lampReturned => simp
  case solReturned => simp
  all_goals simpa using hs

/-- Settles O45: of the ways a step can go only CHECK with `enable` 0 enters STOPPED. -/
theorem onlyCheckWithEnableClearStopsTheLoop : Obligations.OnlyCheckWithEnableClearStopsTheLoop := by
  intro s t hc h hs hstopped
  rcases step_move_running hc h with ⟨ht, hm⟩ | ⟨e, rest, -, -, hnc, hm⟩
  · exact ⟨ht, hm.ph_stopped hs hstopped⟩
  · exact absurd hstopped (hm.ph_ne_stopped hnc hs)

end Sys2Proof.Machine
end

section
/-! PROOFS. The lamp and solenoid words (R121, R140, R191, R192): what `LCOL` answers, the wait for a reader, the frames, and the
words taken a second time. -/

namespace Sys2Proof.Machine

/-! ### `LCOL` -/

theorem exec_lcol (d : Byte) (s : State) :
    exec (.lcol d) s = .next { s with
      colsDetected := diagBump s.params s.colsDetected
      pendingCol := if d = 0 then s.pendingCol else colLut d
      ph := .notifyLamp } := by
  rw [exec, execLcol, goTo]

theorem routedAs_lcol : RoutedAs .lcol Instr.lcol :=
  routedAs_of_decodeWord fun p w hT => by simp [decodeWord, hT]

/-- A one-hot byte is not zero and selects its column (R97). -/
theorem colLut_oneHot : ∀ c : Fin 8, (1 : Byte) <<< c.val ≠ 0 ∧ colLut ((1 : Byte) <<< c.val) = some c := by decide

/-- Every other byte selects none (R97). -/
theorem colLut_of_not_oneHot : ∀ d : Byte, (∀ c : Fin 8, d ≠ (1 : Byte) <<< c.val) → colLut d = none := by decide

/-- Settles O12: the pending column that `LCOL` leaves is read off the column table. -/
theorem lcolSelectsThePendingColumn : Obligations.LcolSelectsThePendingColumn := by
  refine ⟨routedAs_lcol, fun d s => ⟨_, exec_lcol d s, rfl, fun hd => ?_, fun c hd => ?_, fun hd hc => ?_⟩⟩
  · exact if_pos hd
  · obtain ⟨hne, hcol⟩ := colLut_oneHot c
    subst hd
    exact (if_neg hne).trans hcol
  · exact (if_neg hd).trans (colLut_of_not_oneHot d hc)

/-! ### The wait for a reader -/

theorem exec_lrow_of_held {d : Byte} {s : State} {c : Fin 8} (hc : s.pendingCol = some c) (hd : s.lamp[c] ≠ d)
    (hl : s.lampLock ≠ none) : exec (.lrow d) s = .next s := by
  obtain ⟨r, hr⟩ := Option.ne_none_iff_exists'.1 hl
  have hs : lrowStore d s = some c := lrowStore_eq_some.2 ⟨hc, hd⟩
  simp [exec, execLrow, hs, lockedWrite, lockOf, hr]

theorem exec_solWord_of_held {i : Fin 4} {d : Byte} {s : State} (hd : s.sol[i] ≠ d) (hl : s.solLock ≠ none) :
    exec (solWord i d) s = .next s := by
  obtain ⟨r, hr⟩ := Option.ne_none_iff_exists'.1 hl
  rw [exec_solWord, routeSol, if_neg hd]
  simp [lockedWrite, lockOf, hr]

/-- Settles O20: the third answer of an `LROW`, and of a bank's word. -/
theorem storingWordsWaitForAReader : Obligations.StoringWordsWaitForAReader :=
  fun _ _ => ⟨fun _ => exec_lrow_of_held, fun _ => exec_solWord_of_held⟩

/-! ### Frames -/

/-- Settles O18: over the three answers of a bank's word, of which only the store writes a byte. -/
theorem frameOfSolenoidWords : Obligations.FrameOfSolenoidWords := by
  intro i d s t h
  rw [exec_solWord] at h
  rcases routeSol_cases i d s with ⟨-, he⟩ | ⟨hd, -, he⟩ | ⟨-, -, he⟩ <;> rw [he, next_eq_next] at h <;> subst h
  · exact ⟨fun g j _ => readByte_congr rfl rfl rfl g j, rfl⟩
  · refine ⟨fun g j hne => ?_, rfl⟩
    exact readByte_writeByte_other .sol g i.val j d (goTo .notifyLamp s) fun ⟨hg, hj⟩ => hne ⟨hg, hj, hd⟩
  · exact ⟨fun _ _ _ => rfl, rfl⟩

/-- Settles O28: each of the three words answers one state, which differs in the named fields and holds every byte. -/
theorem frameOfWordsThatStoreNothing : Obligations.FrameOfWordsThatStoreNothing := by
  refine fun d a s t => ⟨fun h => ?_, fun h => ?_, fun h => ?_⟩
  · obtain rfl := next_eq_next.1 ((exec_lcol d s).symm.trans h)
    exact ⟨readByte_congr rfl rfl rfl, rfl⟩
  · obtain rfl := next_eq_next.1 ((exec_triacs d s).symm.trans h)
    exact ⟨readByte_congr rfl rfl rfl, rfl⟩
  · obtain rfl := next_eq_next.1 ((exec_invalid a d s).symm.trans h)
    exact ⟨readByte_congr rfl rfl rfl, rfl⟩

/-! ### Words taken twice -/

/-- A bank's word that was taken leaves its byte in the bank. -/
theorem sol_after_solWord {i : Fin 4} {d : Byte} {s t : State} (hl : s.solLock = none)
    (h : exec (solWord i d) s = .next t) : t.sol[i] = d := by
  by_cases hd : s.sol[i] = d
  · rw [exec_solWord_of_equal hd, next_eq_next] at h
    rw [h]; exact hd
  · rw [exec_solWord_of_differs hd hl, next_eq_next] at h
    simp [h]

/-- Settles O21: the first word leaves its byte in the bank, and a word finds nothing to store in such a bank. -/
theorem replayedSolenoidWordStoresNothing : Obligations.ReplayedSolenoidWordStoresNothing :=
  fun _ _ _ _ _ hl h hu => exec_solWord_of_equal (hu.trans (sol_after_solWord hl h))

/-- The block after `LCOL (1 << c)`: column c is pending. -/
def columnSelected (c : Fin 8) (s : State) : State :=
  { s with
    colsDetected := diagBump s.params s.colsDetected
    pendingCol := some c
    ph := .notifyLamp }

/-- The pair is its `LROW`, run with column c pending. -/
theorem execAll_lamp_pair (c : Fin 8) (d : Byte) (s : State) :
    execAll [.lcol ((1 : Byte) <<< c.val), .lrow d] s = nextOf (exec (.lrow d) (columnSelected c s)) := by
  obtain ⟨hne, hcol⟩ := colLut_oneHot c
  rw [execAll, exec_lcol, if_neg hne, hcol]
  simp [nextOf, execAll, columnSelected, Option.bind_fun_some]

/-- A pair that was taken leaves its byte in the column. -/
theorem lamp_after_pair {c : Fin 8} {d : Byte} {s t : State} (hl : s.lampLock = none)
    (h : execAll [.lcol ((1 : Byte) <<< c.val), .lrow d] s = some t) : t.lamp[c] = d := by
  rw [execAll_lamp_pair] at h
  by_cases hd : s.lamp[c] = d
  · have hs : lrowStore d (columnSelected c s) = none := lrowStore_eq_none.2 (by simpa [columnSelected] using hd)
    rw [exec_lrow_of_lrowStore_none hs] at h
    obtain rfl : rowTaken (columnSelected c s) = t := Option.some.inj h
    exact hd
  · have hs : lrowStore d (columnSelected c s) = some c := lrowStore_eq_some.2 ⟨rfl, hd⟩
    rw [exec_lrow_of_lrowStore_some hs hl] at h
    obtain rfl := Option.some.inj h
    simp

/-- Settles O22: the first pair leaves its byte in the column, and the second pair's `LROW` finds nothing to store. -/
theorem replayedLampPairStoresNothing : Obligations.ReplayedLampPairStoresNothing := by
  intro c d s t u hl h hu
  have hs : lrowStore d (columnSelected c u) = none :=
    lrowStore_eq_none.2 (by simpa [columnSelected] using hu.trans (lamp_after_pair hl h))
  rw [execAll_lamp_pair, exec_lrow_of_lrowStore_none hs]
  rfl

end Sys2Proof.Machine
end

section
/-! PROOFS. The triac family (R98, R99, R151 to R158): the step table, the two instructions channel by channel, and a window of
equal delays. -/

namespace Sys2Proof.Machine

/-! ### The step table -/

/-- In an increasing list, the entries up to d are the first i when entry i - 1 is at most d and entry i is not. -/
theorem countP_le_of_pairwise_lt {l : List Nat} (hl : l.Pairwise (· < ·)) {i d : Nat} (hi : i ≤ l.length)
    (hbelow : 0 < i → l.getD (i - 1) 0 ≤ d) (habove : i < l.length → d < l.getD i 0) :
    l.countP (fun t => decide (t ≤ d)) = i := by
  have mono {j k : Nat} (hjk : j ≤ k) (hk : k < l.length) : l[j] ≤ l[k] := by
    rcases Nat.eq_or_lt_of_le hjk with rfl | hlt
    · exact Nat.le_refl _
    · exact Nat.le_of_lt (List.pairwise_iff_getElem.1 hl j k _ hk hlt)
  have htake : (l.take i).countP (fun t => decide (t ≤ d)) = i := by
    have hall : ∀ t ∈ l.take i, decide (t ≤ d) = true := by
      intro t ht
      obtain ⟨j, hj, rfl⟩ := List.mem_iff_getElem.1 ht
      have hji : j < i := by rw [List.length_take] at hj; omega
      have hlast := hbelow (by omega)
      rw [List.getD_eq_getElem _ _ (by omega)] at hlast
      rw [List.getElem_take, decide_eq_true_eq]
      exact (mono (by omega) (by omega)).trans hlast
    rw [List.countP_eq_length.2 hall, List.length_take, Nat.min_eq_left hi]
  have hdrop : (l.drop i).countP (fun t => decide (t ≤ d)) = 0 := by
    refine List.countP_eq_zero.2 fun t ht => ?_
    obtain ⟨j, hj, rfl⟩ := List.mem_iff_getElem.1 ht
    rw [List.length_drop] at hj
    have hfirst := habove (by omega)
    rw [List.getD_eq_getElem _ _ (by omega)] at hfirst
    rw [List.getElem_drop, decide_eq_true_eq, Nat.not_le]
    exact hfirst.trans_le (mono (by omega) (by omega))
  rw [← List.take_append_drop i l, List.countP_append, htake, hdrop, Nat.add_zero]

/-- The level of a delay between threshold i - 1 and threshold i (R151). -/
theorem level_eq {p : Params} (hv : p.Valid) {d : Timestamp} {i : Nat} (hi : i ≤ p.lmax)
    (hbelow : 0 < i → p.stepT.getD (i - 1) 0 ≤ d.toNat) (habove : i < p.lmax → d.toNat < p.stepT.getD i 0) :
    level p d = p.lmax - i := by
  obtain ⟨-, -, -, -, -, -, -, -, -, -, hlength, -, hsorted, -⟩ := hv
  rw [level, countP_le_of_pairwise_lt hsorted (hlength ▸ hi) hbelow (hlength ▸ habove)]

theorem level_antitone (p : Params) {d₁ d₂ : Timestamp} (h : d₁.toNat ≤ d₂.toNat) : level p d₂ ≤ level p d₁ := by
  refine Nat.sub_le_sub_left (List.countP_mono_left fun t _ ht => ?_) _
  simp only [decide_eq_true_eq] at ht ⊢
  exact ht.trans h

/-- Settles O23: the level between two thresholds, at the first, inner and last index, and the count's monotonicity. -/
theorem levelFollowsTheStepTable : Obligations.LevelFollowsTheStepTable := by
  refine fun p hv => ⟨fun d hd => ?_, fun d i hi hlow hhigh => ?_, fun d hd => ?_, fun _ _ => level_antitone p⟩
  · exact level_eq hv (Nat.zero_le _) (fun h => absurd h (Nat.lt_irrefl 0)) fun _ => hd
  · exact level_eq hv hi.le (fun _ => hlow) fun _ => hhigh
  · rw [level_eq hv (Nat.le_refl _) (fun _ => hd) fun h => absurd h (Nat.lt_irrefl _), Nat.sub_self]

/-! ### The two instructions -/

theorem routedAs_triacs : RoutedAs .triacs Instr.triacs :=
  routedAs_of_decodeWord fun p w hT => by simp [decodeWord, hT]

/-- Settles O24: the channels of `triacsTaken`, by whether they fire. -/
theorem triacsTakesALevelForEveryFiredChannel : Obligations.TriacsTakesALevelForEveryFiredChannel := by
  refine ⟨routedAs_triacs, fun d s hacc hlatched =>
    ⟨_, exec_triacs d s, rfl, ?_, ?_, fun k hk => ⟨fun hd hl => ?_, fun h => ?_⟩⟩⟩
  · rw [triacsTaken_acc_length, hacc]
  · rw [triacsTaken_latched_length, hlatched]
  · have hfires : s.fires d k = true := fires_eq_true.2 ⟨hd, hl⟩
    rw [triacsTaken_accAt d (hacc ▸ hk), triacsTaken_latchedAt d (hlatched ▸ hk), hfires, hl]
    exact ⟨rfl, rfl⟩
  · have hfires : s.fires d k = false := fires_eq_false.2 h
    rw [triacsTaken_accAt d (hacc ▸ hk), triacsTaken_latchedAt d (hlatched ▸ hk), hfires, Bool.or_false]
    exact ⟨rfl, rfl⟩

/-- Settles O25: the channels of `markerTaken`, at the W-th marker and before it. -/
theorem markerClosesTheHalfCycle : Obligations.MarkerClosesTheHalfCycle := by
  intro m s hacc hlatched
  refine ⟨_, exec_zc m s, markerTaken_frame s, ?_, ?_, fun k _ => markerTaken_latchedAt s k, fun hw => ?_, fun hw => ?_⟩
  · rw [markerTaken_acc_length, hacc]
  · rw [markerTaken_latched_length, hlatched]
  · rw [markerTaken_zcWin, if_neg hw]
    exact ⟨rfl, markerTaken_bright_of_not_last hw, fun k hk => markerTaken_accAt_of_not_last hw (hacc ▸ hk)⟩
  · rw [markerTaken_zcWin, if_pos hw]
    refine ⟨rfl, by rw [markerTaken_bright_length_of_last hw, hacc], fun k hk => ⟨markerTaken_accAt_of_last hw k, ?_⟩⟩
    rw [markerTaken_brightAt_of_last hw (hacc ▸ hk), Nat.shiftRight_eq_div_pow]

/-- A `TRIACS` word's effect depends on the channels' bits only (R102). -/
theorem triacsTaken_congr {d d' : Byte} {s : State} (hacc : s.acc.length = s.params.nch)
    (hlatched : s.latched.length = s.params.nch) (h : ∀ k < s.params.nch, s.fires d k = s.fires d' k) :
    triacsTaken d s = triacsTaken d' s := by
  have hacc' : (triacsTaken d s).acc = (triacsTaken d' s).acc := by
    refine List.ext_getElem (by simp) fun k hk _ => ?_
    have hfires := h k (by simpa [hacc] using hk)
    simp [triacsTaken, hfires]
  have hlatched' : (triacsTaken d s).latched = (triacsTaken d' s).latched := by
    refine List.ext_getElem (by simp) fun k hk _ => ?_
    have hfires := h k (by simpa [hlatched] using hk)
    simp [triacsTaken, hfires]
  exact congrArg₂ (fun a l => { triacsTaken d s with acc := a, latched := l }) hacc' hlatched'

/-- Settles O26: a marker's meaning does not name its payload, and a `TRIACS` word fires by the channels' bits. -/
theorem ignoredBitsChangeNothing : Obligations.IgnoredBitsChangeNothing := by
  refine ⟨fun m m' s => (exec_zc m s).trans (exec_zc m' s).symm, fun d d' s hacc hlatched h => ?_⟩
  have hfires : ∀ k < s.params.nch, s.fires d k = s.fires d' k := fun k hk => by rw [State.fires, State.fires, h k hk]
  rw [exec_triacs, exec_triacs, triacsTaken_congr hacc hlatched hfires]

/-- Settles O27: the marker's frame, and the published levels before the W-th marker. -/
theorem frameOfTheMarker : Obligations.FrameOfTheMarker := by
  intro m s t h
  obtain rfl : t = markerTaken s := next_eq_next.1 ((exec_zc m s).symm.trans h)
  refine ⟨fun g i hne => ?_, ?_⟩
  · cases g with
    | lamp => simp [readByte, markerTaken, markerStamped]
    | sol => simp [readByte, markerTaken, markerStamped]
    | gi => simp [readByte, markerTaken_bright_of_not_last fun hw => hne ⟨rfl, hw⟩]
  · rw [markerTaken_frame]

/-! ### A window of equal delays -/

/-- One half-cycle taken: the mask fires d microseconds after the last marker, and the next marker comes at `close`. -/
def halfCycleFired (data : Byte) (d close : Nat) (s : State) : State :=
  { triacsTaken data { s with clock := s.zcTime.toNat + d } with clock := close }

theorem halfCycle_eq (data : Byte) (d close : Nat) (s : State) :
    halfCycle data d close s = some (markerTaken (halfCycleFired data d close s)) := rfl

/-- Channel k after j half-cycles of a window in which each added L. -/
structure WindowAt (p : Params) (k L j : Nat) (s : State) : Prop where
  params : s.params = p
  zcWin : s.zcWin = j
  inAcc : k < s.acc.length
  inLatched : k < s.latched.length
  accAt : s.accAt k = j * L
  latchedAt : s.latchedAt k = false

/-- The modular delay of a word d microseconds after the last marker is d (R162). -/
theorem delay_of_clock {s : State} (d : Nat) :
    ({ s with clock := s.zcTime.toNat + d } : State).delay = BitVec.ofNat 32 d := by
  rw [State.delay, State.now, BitVec.ofNat_add, BitVec.ofNat_toNat, BitVec.setWidth_eq, BitVec.add_comm,
    BitVec.add_sub_cancel]

section
variable {p : Params} {data : Byte} {d k j : Nat} {s : State}

/-- A half-cycle that fires the channel adds the level of the delay, and its close adds nothing. -/
theorem WindowAt.fired_accAt (h : WindowAt p k (level p (BitVec.ofNat 32 d)) j s)
    (hbit : data.getLsbD (chBitOf p k) = true) (close : Nat) :
    (halfCycleFired data d close s).accAt k + closeAddend (halfCycleFired data d close s) k =
      (j + 1) * level p (BitVec.ofNat 32 d) := by
  have hfires : ({ s with clock := s.zcTime.toNat + d } : State).fires data k = true :=
    fires_eq_true.2 ⟨h.params ▸ hbit, h.latchedAt⟩
  have hacc : (halfCycleFired data d close s).accAt k = j * level p (BitVec.ofNat 32 d) + level p (BitVec.ofNat 32 d) := by
    have hfired := triacsTaken_accAt data (s := { s with clock := s.zcTime.toNat + d }) h.inAcc
    rw [if_pos hfires, delay_of_clock] at hfired
    rw [← h.accAt, ← h.params]
    exact hfired
  have hlatched : (halfCycleFired data d close s).latchedAt k = true := by
    have hfired := triacsTaken_latchedAt data (s := { s with clock := s.zcTime.toNat + d }) h.inLatched
    rw [hfires, Bool.or_true] at hfired
    exact hfired
  rw [hacc, closeAddend_eq, hlatched, if_pos rfl]
  ring

theorem halfCycleFired_acc_length (close : Nat) : (halfCycleFired data d close s).acc.length = s.acc.length :=
  triacsTaken_acc_length data _

theorem halfCycleFired_latched_length (close : Nat) :
    (halfCycleFired data d close s).latched.length = s.latched.length :=
  triacsTaken_latched_length data _

/-- Before the W-th marker a half-cycle is one more addend. -/
theorem WindowAt.next (h : WindowAt p k (level p (BitVec.ofNat 32 d)) j s)
    (hbit : data.getLsbD (chBitOf p k) = true) (close : Nat) (hw : j + 1 ≠ p.w) :
    WindowAt p k (level p (BitVec.ofNat 32 d)) (j + 1) (markerTaken (halfCycleFired data d close s)) := by
  have hnot : (halfCycleFired data d close s).zcWin + 1 ≠ (halfCycleFired data d close s).params.w := by
    show s.zcWin + 1 ≠ s.params.w
    rwa [h.zcWin, h.params]
  have hin : k < (halfCycleFired data d close s).acc.length := (halfCycleFired_acc_length close).symm ▸ h.inAcc
  exact
    { params := by rw [markerTaken_frame]; exact h.params
      zcWin := by rw [markerTaken_zcWin, if_neg hnot]; exact congrArg (· + 1) h.zcWin
      inAcc := by rwa [markerTaken_acc_length]
      inLatched := by rw [markerTaken_latched_length, halfCycleFired_latched_length]; exact h.inLatched
      accAt := by rw [markerTaken_accAt_of_not_last hnot hin, h.fired_accAt hbit]
      latchedAt := markerTaken_latchedAt _ k }

/-- The W-th marker publishes the window's mean, which is the level of the delay (R158). -/
theorem WindowAt.last (hv : p.Valid) (h : WindowAt p k (level p (BitVec.ofNat 32 d)) j s)
    (hbit : data.getLsbD (chBitOf p k) = true) (close : Nat) (hw : j + 1 = p.w) :
    (markerTaken (halfCycleFired data d close s)).zcWin = 0 ∧
      ((markerTaken (halfCycleFired data d close s)).brightAt k).toNat = level p (BitVec.ofNat 32 d) ∧
      (markerTaken (halfCycleFired data d close s)).accAt k = 0 ∧
      (markerTaken (halfCycleFired data d close s)).latchedAt k = false := by
  have hlast : (halfCycleFired data d close s).zcWin + 1 = (halfCycleFired data d close s).params.w := by
    show s.zcWin + 1 = s.params.w
    rwa [h.zcWin, h.params]
  have hin : k < (halfCycleFired data d close s).acc.length := (halfCycleFired_acc_length close).symm ▸ h.inAcc
  have hlog : (halfCycleFired data d close s).params.log2w = p.log2w := congrArg Params.log2w h.params
  obtain ⟨hpow, -, -, -, -, -, -, -, -, hlmax, -⟩ := hv
  have hbyte : level p (BitVec.ofNat 32 d) < 2 ^ 8 := by
    have := level_le p (BitVec.ofNat 32 d)
    omega
  refine ⟨by rw [markerTaken_zcWin, if_pos hlast], ?_, markerTaken_accAt_of_last hlast k, markerTaken_latchedAt _ k⟩
  rw [markerTaken_brightAt_of_last hlast hin, h.fired_accAt hbit, hlog, hw, hpow, Nat.shiftRight_eq_div_pow,
    Nat.mul_div_cancel_left _ (Nat.two_pow_pos _), BitVec.toNat_ofNat, Nat.mod_eq_of_lt hbyte]

/-- The rest of a window, from any half-cycle of it on. -/
theorem WindowAt.publishes (hv : p.Valid) (hbit : data.getLsbD (chBitOf p k) = true) :
    ∀ (closes : List Nat) (j : Nat) (s : State), WindowAt p k (level p (BitVec.ofNat 32 d)) j s →
      closes ≠ [] → j + closes.length = p.w → ∃ t, halfCycles data d closes s = some t ∧ t.zcWin = 0 ∧
        (t.brightAt k).toNat = level p (BitVec.ofNat 32 d) ∧ t.accAt k = 0 ∧ t.latchedAt k = false
  | [], _, _, _, hne, _ => absurd rfl hne
  | [close], j, s, h, _, hlen => ⟨_, rfl, h.last hv hbit close hlen⟩
  | close :: close' :: rest, j, s, h, _, hlen => by
    have hnext := h.next hbit close (by simp only [List.length_cons] at hlen; omega)
    obtain ⟨t, ht, hres⟩ := WindowAt.publishes hv hbit (close' :: rest) (j + 1) _ hnext (by simp)
      (by simp only [List.length_cons] at hlen ⊢; omega)
    refine ⟨t, ?_, hres⟩
    rw [halfCycles, halfCycle_eq, Option.bind_some, ht]

end

/-- Settles O30: the window's start is its 0th half-cycle, and the rest of the window publishes the level. -/
theorem aWindowOfEqualDelaysPublishesTheirLevel : Obligations.AWindowOfEqualDelaysPublishesTheirLevel := by
  intro s data d k closes hi hwin hk hacc hlatched hbit _ hlen
  have hstart : WindowAt s.params k (level s.params (BitVec.ofNat 32 d)) 0 s :=
    { params := rfl
      zcWin := hwin
      inAcc := hi.accLength.symm ▸ hk
      inLatched := hi.latchedLength.symm ▸ hk
      accAt := by rw [hacc, Nat.zero_mul]
      latchedAt := hlatched }
  have hne : closes ≠ [] := List.ne_nil_of_length_pos (hlen ▸ Params_w_pos hi.valid)
  exact hstart.publishes hi.valid hbit closes 0 s hne (by rw [hlen, Nat.zero_add])

end Sys2Proof.Machine
end

section
/-! PROOFS. The host operations and the producers (R63 to R66, R200 to R212): what each operation answers, the refusals, the
packed snapshots, the frames, and the pushes. -/

namespace Sys2Proof.Machine

/-! ### `start` and `stop` -/

theorem exec_start (s : State) : exec .start s = unlessCallback s
    (if stopInProgress s then .refused .startStopOverlap
     else if s.running || s.samplerActive then .refused .startWhileActive
     else .next (started s)) := rfl

theorem exec_stop (s : State) : exec .stop s = unlessCallback s
    (if stopInProgress s then .refused .startStopOverlap
     else if s.running then .next (setCall s.caller .stopping { s with enable := false })
     else .next { s with enable := false, samplerActive := false }) := rfl

/-- Settles O47: all guards of `start` pass, and `started` is the effect. -/
theorem startBringsTheBlockUp : Obligations.StartBringsTheBlockUp := by
  intro s hcaller hstop hr ha
  rw [exec_start, unlessCallback_of_ne hcaller]
  simp [hstop, hr, ha, started]

theorem exec_stop_of_stopped {s : State} (hcaller : s.caller ≠ .callback) (hstop : stopInProgress s = false)
    (hr : s.running = false) : exec .stop s = .next { s with enable := false, samplerActive := false } := by
  rw [exec_stop, unlessCallback_of_ne hcaller, if_neg (by simp [hstop]), if_neg (by simp [hr])]

theorem exec_stop_of_running {s : State} (hcaller : s.caller ≠ .callback) (hstop : stopInProgress s = false)
    (hr : s.running = true) : exec .stop s = .next (setCall s.caller .stopping { s with enable := false }) := by
  rw [exec_stop, unlessCallback_of_ne hcaller, if_neg (by simp [hstop]), if_pos hr]

theorem step_stopPoll {s : State} {c : Ctx} {rest : List Event} (h : s.script = .stopPoll c :: rest)
    (hc : callOf c s = some .stopping) :
    step s = if s.running then .next (afterHead s) else .next (endCall c { afterHead s with samplerActive := false }) := by
  rw [step_event h, eventFetch, Fetched.outcome, stopPolled, callOf_afterHead, if_pos hc]
  rfl

/-- Settles O48: the first action on a stopped and on a running block, and a look at each. -/
theorem stopWaitsForTheLoopToExit : Obligations.StopWaitsForTheLoopToExit := by
  refine ⟨fun s hcaller hstop => ⟨exec_stop_of_stopped hcaller hstop, fun hr => ?_⟩,
    fun s c rest h hc => ⟨fun hr => ?_, fun hr => ?_⟩⟩
  · exact ⟨_, exec_stop_of_running hcaller hstop hr, rfl, callOf_setCall _ _ _, fun _ hne => callOf_setCall_other hne _ _⟩
  · rw [step_stopPoll h hc, if_pos hr]
  · have hreturns : step s = .next (endCall c { afterHead s with samplerActive := false }) := by
      rw [step_stopPoll h hc, if_neg (by simp [hr])]
    exact ⟨_, hreturns, rfl, callOf_endCall c _, fun _ hne => callOf_endCall_other hne _⟩

/-! ### The slots -/

theorem exec_setLampNotify (cb : Option Callback) (s : State) :
    exec (.setLampNotify cb) s = unlessCallback s (.next { s with lampCb := cb }) := rfl

theorem exec_setSolNotify (cb : Option Callback) (s : State) :
    exec (.setSolNotify cb) s = unlessCallback s (.next { s with solCb := cb }) := rfl

/-- Settles O49: outside a callback the guard of a mutating operation passes its answer through. -/
theorem setNotifyReplacesTheSlot : Obligations.SetNotifyReplacesTheSlot := by
  intro cb s hcaller
  rw [exec_setLampNotify, exec_setSolNotify, unlessCallback_of_ne hcaller, unlessCallback_of_ne hcaller]
  exact ⟨rfl, rfl⟩

/-! ### Refusals -/

theorem unlessCallback_callback {s : State} (h : s.caller = .callback) (r : Result) :
    unlessCallback s r = .refused .mutatingFromCallback := if_pos h

/-- Settles O56: the guard against callbacks, and the two preconditions of `start` and `stop`. -/
theorem forbiddenCallsAreRefused : Obligations.ForbiddenCallsAreRefused := by
  refine ⟨fun i cb s hi hcaller => ?_, fun s hcaller hstop => ?_, fun s hcaller hstop hactive => ?_⟩
  · simp only [List.mem_cons, List.not_mem_nil, or_false] at hi
    rcases hi with rfl | rfl | rfl | rfl | rfl <;> exact unlessCallback_callback hcaller _
  · rw [exec_start, exec_stop, unlessCallback_of_ne hcaller, unlessCallback_of_ne hcaller, if_pos hstop, if_pos hstop]
    exact ⟨rfl, rfl⟩
  · have hguard : (s.running || s.samplerActive) = true := by simpa using hactive
    rw [exec_start, unlessCallback_of_ne hcaller, hstop, if_neg Bool.false_ne_true, if_pos hguard]

/-! ### The snapshots -/

/-- Byte i of a packed number that fits its width (R73). -/
theorem extractLsb'_packBytes {w : Nat} {l : List Byte} (hw : 256 ^ l.length ≤ 2 ^ w) (i : Nat) :
    (BitVec.ofNat w (packBytes l)).extractLsb' (8 * i) 8 = l.getD i 0 := by
  have hfits : packBytes l < 2 ^ w := (packBytes_lt l).trans_le hw
  apply BitVec.eq_of_toNat_eq
  rw [BitVec.extractLsb'_toNat, BitVec.toNat_ofNat, Nat.mod_eq_of_lt hfits, Nat.shiftRight_eq_div_pow, Nat.pow_mul]
  exact packBytes_byte l i

theorem packLights_byte (v : Vector Byte 8) (i : Fin 8) : (packLights v).extractLsb' (8 * i.val) 8 = v[i] := by
  rw [packLights, extractLsb'_packBytes (by simp)]
  simp [List.getD_eq_getElem?_getD]

theorem packSolenoids_byte (v : Vector Byte 4) (i : Fin 4) : (packSolenoids v).extractLsb' (8 * i.val) 8 = v[i] := by
  rw [packSolenoids, extractLsb'_packBytes (by simp)]
  simp [List.getD_eq_getElem?_getD]

/-- A getter whose lock is free, or its caller's, answers the snapshot and leaves the lock free (R205). -/
theorem exec_getLights {s : State} (h : s.lampLock = none ∨ s.lampLock = some s.caller) :
    exec .getLights s = .next { s with out := .lights s.caller (packLights s.lamp) :: s.out, lampLock := none } := by
  rcases h with h | h
  · simp [exec, execGetLights, lockedRead, lockOf, h, emit]
  · simp [exec, execGetLights, lockedRead, lockOf, h, emit, setLock]

theorem exec_getSolenoids {s : State} (h : s.solLock = none ∨ s.solLock = some s.caller) :
    exec .getSolenoids s =
      .next { s with out := .solenoids s.caller (packSolenoids s.sol) :: s.out, solLock := none } := by
  rcases h with h | h
  · simp [exec, execGetSolenoids, lockedRead, lockOf, h, emit]
  · simp [exec, execGetSolenoids, lockedRead, lockOf, h, emit, setLock]

theorem exec_getLights_of_held {s : State} {c : Ctx} (h : s.lampLock = some c) (hc : c ≠ s.caller) :
    exec .getLights s = .next s := by
  simp [exec, execGetLights, lockedRead, lockOf, h, hc]

theorem exec_getSolenoids_of_held {s : State} {c : Ctx} (h : s.solLock = some c) (hc : c ≠ s.caller) :
    exec .getSolenoids s = .next s := by
  simp [exec, execGetSolenoids, lockedRead, lockOf, h, hc]

/-- A context that enters a getter takes the group's free lock, and waits for a held one (R70). -/
theorem step_enterGetter {s : State} {c : Ctx} {g : Group} {rest : List Event} (h : s.script = .enterGetter c g :: rest)
    (hr : ready c .start s = true) (hg : g ≠ .gi) :
    step s = if lockOf s g = none then .next (setLock g (some c) (afterHead s)) else .next (afterHead s) := by
  have hlock : lockOf (afterHead s) g = lockOf s g := by cases g <;> rfl
  rw [step_event h, eventFetch, Fetched.outcome, getterEntered, ready_afterHead, hr, hlock]
  cases lockOf s g <;> simp [hg]

/-- Settles O50: the two getters with a free, an own and another's lock, and the entry with a free and a held one. -/
theorem snapshotGettersReturnThePackedBytes : Obligations.SnapshotGettersReturnThePackedBytes := by
  refine fun s => ⟨fun h => ⟨_, exec_getLights h, packLights_byte s.lamp⟩,
    fun h => ⟨_, exec_getSolenoids h, packSolenoids_byte s.sol⟩, fun _ => exec_getLights_of_held,
    fun _ => exec_getSolenoids_of_held, fun c rest h hr => ?_, fun c rest h hr => ?_⟩
  · rw [step_enterGetter h hr (by simp)]
    exact ⟨fun hl => if_pos hl, fun hl => if_neg hl⟩
  · rw [step_enterGetter h hr (by simp)]
    exact ⟨fun hl => if_pos hl, fun hl => if_neg hl⟩

/-! ### The fieldwise getters -/

theorem exec_getGi (s : State) :
    exec .getGi s = .next (setCall s.caller (.gi (List.replicate s.params.nch none)) s) := rfl

theorem exec_getStats (s : State) : exec .getStats s = .next (setCall s.caller (.stats {}) s) := rfl

/-- Settles O51: each opens its call by `setCall`. -/
theorem fieldwiseGettersBeginTheirReads : Obligations.FieldwiseGettersBeginTheirReads :=
  fun s => ⟨⟨_, exec_getGi s, rfl, callOf_setCall _ _ _, fun _ hne => callOf_setCall_other hne _ _⟩,
    ⟨_, exec_getStats s, rfl, callOf_setCall _ _ _, fun _ hne => callOf_setCall_other hne _ _⟩⟩

/-! ### Frames -/

theorem exec_start_next {s t : State} (h : exec .start s = .next t) : t = started s := by
  obtain ⟨-, h⟩ := unlessCallback_next h
  split at h
  · cases h
  · split at h
    · cases h
    · exact next_eq_next.1 h

theorem exec_stop_next {s t : State} (h : exec .stop s = .next t) :
    t = setCall s.caller .stopping { s with enable := false } ∨ t = { s with enable := false, samplerActive := false } := by
  obtain ⟨-, h⟩ := unlessCallback_next h
  split at h
  · cases h
  · split at h
    · exact .inl (next_eq_next.1 h)
    · exact .inr (next_eq_next.1 h)

theorem exec_getLights_next {s t : State} (h : exec .getLights s = .next t) :
    t = { s with out := .lights s.caller (packLights s.lamp) :: s.out, lampLock := none } ∨ t = s := by
  cases hl : s.lampLock with
  | none => exact .inl (next_eq_next.1 ((exec_getLights (.inl hl)).symm.trans h))
  | some c =>
    by_cases hc : c = s.caller
    · exact .inl (next_eq_next.1 ((exec_getLights (.inr (hc ▸ hl))).symm.trans h))
    · exact .inr (next_eq_next.1 ((exec_getLights_of_held hl hc).symm.trans h))

theorem exec_getSolenoids_next {s t : State} (h : exec .getSolenoids s = .next t) :
    t = { s with out := .solenoids s.caller (packSolenoids s.sol) :: s.out, solLock := none } ∨ t = s := by
  cases hl : s.solLock with
  | none => exact .inl (next_eq_next.1 ((exec_getSolenoids (.inl hl)).symm.trans h))
  | some c =>
    by_cases hc : c = s.caller
    · exact .inl (next_eq_next.1 ((exec_getSolenoids (.inr (hc ▸ hl))).symm.trans h))
    · exact .inr (next_eq_next.1 ((exec_getSolenoids_of_held hl hc).symm.trans h))

/-- Settles O55: each operation's answers, which hold every byte and differ in the named fields. -/
theorem frameOfHostOperations : Obligations.FrameOfHostOperations := by
  refine fun cb s t => ⟨fun h => ?_, fun h => ?_, fun h => ?_, fun h => ?_, fun h => ?_, fun h => ?_, fun h => ?_,
    fun h => ?_, fun h => ?_⟩
  · obtain rfl := exec_start_next h
    exact ⟨readByte_congr rfl rfl rfl, rfl⟩
  · rcases exec_stop_next h with rfl | rfl <;> exact ⟨readByte_congr rfl rfl rfl, rfl⟩
  · obtain rfl := next_eq_next.1 (unlessCallback_next h).2
    exact ⟨readByte_congr rfl rfl rfl, rfl⟩
  · obtain rfl := next_eq_next.1 (unlessCallback_next h).2
    exact ⟨readByte_congr rfl rfl rfl, rfl⟩
  · rcases exec_getLights_next h with rfl | rfl <;> exact ⟨readByte_congr rfl rfl rfl, rfl⟩
  · rcases exec_getSolenoids_next h with rfl | rfl <;> exact ⟨readByte_congr rfl rfl rfl, rfl⟩
  · obtain rfl := next_eq_next.1 ((exec_getGi s).symm.trans h)
    exact ⟨readByte_congr rfl rfl rfl, rfl⟩
  · obtain rfl := next_eq_next.1 ((exec_getStats s).symm.trans h)
    exact ⟨readByte_congr rfl rfl rfl, rfl⟩
  · obtain rfl := next_eq_next.1 (unlessCallback_next h).2
    exact ⟨readByte_congr rfl rfl rfl, rfl⟩

/-! ### The producers -/

theorem pushWord_of_room {p : Params} {q : List BusWord} (w : BusWord) (h : q.length < p.qcap) :
    pushWord p w q = q ++ [w] := if_pos h

theorem pushWord_newestDropped {p : Params} {q : List BusWord} (w : BusWord) (h : p.qcap ≤ q.length)
    (hfull : p.fullPush = .newestDropped) : pushWord p w q = q := by
  rw [pushWord, if_neg (Nat.not_lt.2 h), hfull]

theorem pushWord_oldestOverwritten {p : Params} {q : List BusWord} (w : BusWord) (h : p.qcap ≤ q.length)
    (hfull : p.fullPush = .oldestOverwritten) : pushWord p w q = q.tail ++ [w] := by
  rw [pushWord, if_neg (Nat.not_lt.2 h), hfull]

theorem step_strobe {s : State} {raw : BusWord} {rest : List Event} (h : s.script = .strobe raw :: rest) :
    step s = .next
      (if s.samplerActive then { afterHead s with dq := pushWord s.params (~~~raw) s.dq } else afterHead s) := by
  rw [step_event h, eventFetch, Fetched.outcome, strobed]
  rfl

theorem step_zeroCross {s : State} {m : Marker} {rest : List Event} (h : s.script = .zeroCross m :: rest) :
    step s = .next
      (if s.samplerActive then { afterHead s with zq := pushMarker s.params m s.zq } else afterHead s) := by
  rw [step_event h, eventFetch, Fetched.outcome, zeroCrossed]
  rfl

/-- Settles O58: the two producers with the sequencers off, with room, and with a full queue. -/
theorem producersPushOnlyWhileActive : Obligations.ProducersPushOnlyWhileActive := by
  refine fun s rest => ⟨fun raw h => ?_, fun m h => ?_⟩
  · rw [step_strobe h]
    refine ⟨fun ha => ?_, fun ha hroom => ?_, fun ha hfull hpush => ?_, fun ha hfull hpush => ?_⟩
    · rw [if_neg (by simp [ha])]
    · rw [if_pos ha, pushWord_of_room _ hroom]
    · rw [if_pos ha, pushWord_newestDropped _ hfull hpush]; rfl
    · rw [if_pos ha, pushWord_oldestOverwritten _ hfull hpush]
  · rw [step_zeroCross h]
    refine ⟨fun ha => ?_, fun ha hroom => ?_, fun ha hfull => ?_⟩
    · rw [if_neg (by simp [ha])]
    · rw [if_pos ha, pushMarker, if_pos hroom]
    · rw [if_pos ha, pushMarker, if_neg (Nat.not_lt.2 hfull)]; rfl

end Sys2Proof.Machine
end

section
/-! PROOFS. The single reads of `get_gi` and `get_stats` (R72, R207, R208): what one read answers in any state, and what a run of
reads with nothing between returns. -/

namespace Sys2Proof.Machine

/-! ### One read of `get_gi` -/

section
variable {s : State} {c : Ctx} {k : Nat} {rest : List Event} {got : List (Option Byte)}

theorem step_readGi (h : s.script = .readGi c k :: rest) : step s = giRead c k (afterHead s) := by
  rw [step_event h, eventFetch, Fetched.outcome]

/-- A read with a channel still to be read keeps the call. -/
theorem step_readGi_goes_on (h : s.script = .readGi c k :: rest) (hc : callOf c s = some (.gi got))
    (hk : got[k]? = some none) (hr : allRead (got.set k (some (s.brightAt k))) = none) :
    step s = .next (setCall c (.gi (got.set k (some (s.brightAt k)))) (afterHead s)) := by
  have hr' : allRead (got.set k (some ((afterHead s).brightAt k))) = none := hr
  rw [step_readGi h, giRead, callOf_afterHead, hc]
  simp only [hk, if_true, hr']
  rfl

/-- The last read returns the levels. -/
theorem step_readGi_returns {levels : List Byte} (h : s.script = .readGi c k :: rest) (hc : callOf c s = some (.gi got))
    (hk : got[k]? = some none) (hr : allRead (got.set k (some (s.brightAt k))) = some levels) :
    step s = .next (emit (.gi c levels) (endCall c (afterHead s))) := by
  have hr' : allRead (got.set k (some ((afterHead s).brightAt k))) = some levels := hr
  rw [step_readGi h, giRead, callOf_afterHead, hc]
  simp only [hk, if_true, hr']

end

/-! ### One read of `get_stats` -/

/-- A read depends on the diagnostics only. -/
theorem take_afterHead (got : StatsPart) (s : State) (f : StatField) : got.take (afterHead s) f = got.take s f := by
  cases f <;> rfl

section
variable {s : State} {c : Ctx} {f : StatField} {rest : List Event} {got : StatsPart}

theorem step_readStat (h : s.script = .readStat c f :: rest) : step s = statRead c f (afterHead s) := by
  rw [step_event h, eventFetch, Fetched.outcome]

/-- A read with a field still to be read keeps the call. -/
theorem step_readStat_goes_on (h : s.script = .readStat c f :: rest) (hc : callOf c s = some (.stats got))
    (hf : f ∈ statFields s.params) (hnone : got.taken f = none) (hr : (got.take s f).done s.params.diag = none) :
    step s = .next (setCall c (.stats (got.take s f)) (afterHead s)) := by
  have hlacks : got.lacks (afterHead s).params.diag f = true := (lacks_iff got s.params f).2 ⟨hf, hnone⟩
  have hr' : (got.take s f).done (afterHead s).params.diag = none := hr
  rw [step_readStat h, statRead, callOf_afterHead, hc]
  simp only [hlacks, if_true, take_afterHead, hr']

/-- The last read returns the record. -/
theorem step_readStat_returns {v : Stats} (h : s.script = .readStat c f :: rest) (hc : callOf c s = some (.stats got))
    (hf : f ∈ statFields s.params) (hnone : got.taken f = none) (hr : (got.take s f).done s.params.diag = some v) :
    step s = .next (emit (.stats c v) (endCall c (afterHead s))) := by
  have hlacks : got.lacks (afterHead s).params.diag f = true := (lacks_iff got s.params f).2 ⟨hf, hnone⟩
  have hr' : (got.take s f).done (afterHead s).params.diag = some v := hr
  rw [step_readStat h, statRead, callOf_afterHead, hc]
  simp only [hlacks, if_true, take_afterHead, hr']

end

/-- A single read of `get_gi` in any state: it takes `bright[k]` of its moment (R72). -/
theorem step_readGi_takes_brightAt (s : State) (c : Ctx) (k : Nat) (rest : List Event) (got : List (Option Byte))
    (h : s.script = .readGi c k :: rest) (hc : callOf c s = some (.gi got)) (hk : got[k]? = some none) :
    ∃ t, step s = .next t ∧
      t = { afterHead s with calls := t.calls, out := t.out } ∧ (∀ d, d ≠ c → callOf d t = callOf d s) ∧
      ((∃ j, j ≠ k ∧ got[j]? = some none) →
        t.out = s.out ∧ callOf c t = some (.gi (got.set k (some (s.brightAt k))))) ∧
      ((∀ j, j ≠ k → got[j]? ≠ some none) → callOf c t = none ∧ ∃ levels : List Byte,
        t.out = .gi c levels :: s.out ∧ levels.map some = got.set k (some (s.brightAt k))) := by
  by_cases hmore : ∃ j, j ≠ k ∧ got[j]? = some none
  · obtain ⟨j, hj, hjnone⟩ := id hmore
    have hr : allRead (got.set k (some (s.brightAt k))) = none :=
      allRead_eq_none (i := j) (by rw [List.getElem?_set_ne hj.symm, hjnone])
    exact ⟨_, step_readGi_goes_on h hc hk hr, rfl, fun d hd => callOf_setCall_other hd _ _,
      fun _ => ⟨rfl, callOf_setCall c _ _⟩, fun hlast => absurd hjnone (hlast j hj)⟩
  · have hlast (j : Nat) : (got.set k (some (s.brightAt k)))[j]? ≠ some none := by
      by_cases hj : j = k
      · subst hj
        rw [List.getElem?_set_self (List.getElem?_eq_some_iff.1 hk).1]
        simp
      · rw [List.getElem?_set_ne (Ne.symm hj)]
        exact fun hnone => hmore ⟨j, hj, hnone⟩
    obtain ⟨levels, hr, hlevels⟩ := allRead_eq_some hlast
    exact ⟨_, step_readGi_returns h hc hk hr, rfl, fun d hd => callOf_endCall_other hd _, fun hm => absurd hm hmore,
      fun _ => ⟨callOf_endCall c _, levels, rfl, hlevels⟩⟩

/-- A single read of `get_stats` in any state: it takes the field's value of its moment (R72). -/
theorem step_readStat_takes_statValue (s : State) (c : Ctx) (f : StatField) (rest : List Event) (got : StatsPart)
    (h : s.script = .readStat c f :: rest) (hc : callOf c s = some (.stats got)) (hf : f ∈ statFields s.params)
    (hnone : got.taken f = none) :
    ∃ t, step s = .next t ∧
      t = { afterHead s with calls := t.calls, out := t.out } ∧ (∀ d, d ≠ c → callOf d t = callOf d s) ∧
      ((∃ g ∈ statFields s.params, g ≠ f ∧ got.taken g = none) → t.out = s.out ∧ ∃ got',
        callOf c t = some (.stats got') ∧ got'.taken f = some (statValue s f) ∧
          ∀ g, g ≠ f → got'.taken g = got.taken g) ∧
      ((∀ g ∈ statFields s.params, g ≠ f → got.taken g ≠ none) → callOf c t = none ∧ ∃ v : Stats,
        t.out = .stats c v :: s.out ∧ v.value f = some (statValue s f) ∧
          (∀ g ∈ statFields s.params, g ≠ f → v.value g = got.taken g) ∧ v.diag.isSome = s.params.diag) := by
  by_cases hmore : ∃ g ∈ statFields s.params, g ≠ f ∧ got.taken g = none
  · obtain ⟨g, hg, hgf, hgnone⟩ := id hmore
    have hr : (got.take s f).done s.params.diag = none :=
      done_eq_none _ _ hg (by rw [take_taken_other got s hgf, hgnone])
    exact ⟨_, step_readStat_goes_on h hc hf hnone hr, rfl, fun d hd => callOf_setCall_other hd _ _,
      fun _ => ⟨rfl, _, callOf_setCall c _ _, take_taken got s f, fun _ => take_taken_other got s⟩,
      fun hlast => absurd hgnone (hlast g hg hgf)⟩
  · have hlast : ∀ g ∈ statFields s.params, (got.take s f).taken g ≠ none := by
      intro g hg
      by_cases hgf : g = f
      · subst hgf; simp
      · rw [take_taken_other got s hgf]
        exact fun hgnone => hmore ⟨g, hg, hgf, hgnone⟩
    obtain ⟨v, hr, hv, hdiag⟩ := done_eq_some _ _ hlast
    refine ⟨_, step_readStat_returns h hc hf hnone hr, rfl, fun d hd => callOf_endCall_other hd _,
      fun hm => absurd hm hmore, fun _ => ⟨callOf_endCall c _, v, rfl, ?_, fun g hg hgf => ?_, hdiag⟩⟩
    · rw [hv f hf, take_taken]
    · rw [hv g hg, take_taken_other got s hgf]

/-- Settles O60: one read of each getter, by whether anything else is still to be read. -/
theorem oneReadTakesTheValueOfItsMoment : Obligations.OneReadTakesTheValueOfItsMoment :=
  ⟨step_readGi_takes_brightAt, step_readStat_takes_statValue⟩

/-! ### A run of reads of `get_gi` -/

/-- The call's part when the channels of `order` are still to be read and the levels are `bright`. -/
def giSoFar (bright : List Byte) (order : List Nat) : List (Option Byte) :=
  bright.mapIdx fun j b => if j ∈ order then none else some b

theorem giSoFar_getElem? (bright : List Byte) (order : List Nat) (j : Nat) :
    (giSoFar bright order)[j]? = bright[j]?.map fun b => if j ∈ order then none else some b := by
  simp [giSoFar]

theorem giSoFar_pending {bright : List Byte} {order : List Nat} {j : Nat} (hj : j ∈ order) (hlt : j < bright.length) :
    (giSoFar bright order)[j]? = some none := by
  simp [giSoFar_getElem?, hj, hlt]

theorem giSoFar_start {bright : List Byte} {order : List Nat} (h : ∀ j < bright.length, j ∈ order) :
    giSoFar bright order = List.replicate bright.length none := by
  refine List.ext_getElem (by simp [giSoFar]) fun j hj _ => ?_
  have hlt : j < bright.length := by simpa [giSoFar] using hj
  simp [giSoFar, h j hlt]

/-- One more channel read. -/
theorem giSoFar_set {bright : List Byte} {order : List Nat} {k : Nat} (hk : k ∉ order) (hlt : k < bright.length) :
    (giSoFar bright (k :: order)).set k (some (bright.getD k 0)) = giSoFar bright order := by
  refine List.ext_getElem (by simp [giSoFar]) fun j hj _ => ?_
  by_cases hjk : j = k
  · subst hjk; simp [giSoFar, hk, hlt]
  · simp [giSoFar, List.getElem_set_ne (Ne.symm hjk), hjk]

theorem allRead_map_some (bs : List Byte) : allRead (bs.map some) = some bs := by
  induction bs with
  | nil => rfl
  | cons b bs ih => simp [allRead, ih]

theorem allRead_giSoFar_nil (bright : List Byte) : allRead (giSoFar bright []) = some bright := by
  have h : giSoFar bright [] = bright.map some := List.ext_getElem (by simp [giSoFar]) fun j _ _ => by simp [giSoFar]
  rw [h, allRead_map_some]

/-- The reads still to come, in their order, return the levels. -/
theorem runSteps_readGi (c : Ctx) (rest : List Event) :
    ∀ (order : List Nat) (s : State), order ≠ [] → order.Nodup → (∀ j ∈ order, j < s.bright.length) →
      callOf c s = some (.gi (giSoFar s.bright order)) → s.script = order.map (Event.readGi c) ++ rest →
      ∃ t, runSteps order.length s = .next t ∧ callOf c t = none ∧
        t = { s with script := rest, out := .gi c s.bright :: s.out, calls := t.calls } ∧
        ∀ d, d ≠ c → callOf d t = callOf d s
  | [], _, hne, _, _, _, _ => absurd rfl hne
  | [k], s, _, hnodup, hlt, hc, hs => by
    have hk := hlt k (by simp)
    have hset : (giSoFar s.bright [k]).set k (some (s.brightAt k)) = giSoFar s.bright [] := giSoFar_set (by simp) hk
    have hstep := step_readGi_returns hs hc (giSoFar_pending (by simp) hk) (by rw [hset, allRead_giSoFar_nil])
    refine ⟨_, runSteps_next hstep 0, callOf_endCall c _, ?_, fun d hd => callOf_endCall_other hd _⟩
    simp [emit, endCall, afterHead, hs]
  | k :: k' :: order, s, _, hnodup, hlt, hc, hs => by
    have hk := hlt k (by simp)
    obtain ⟨hknot, hnodup'⟩ := List.nodup_cons.1 hnodup
    have hset : (giSoFar s.bright (k :: k' :: order)).set k (some (s.brightAt k)) = giSoFar s.bright (k' :: order) :=
      giSoFar_set hknot hk
    have hmore : allRead (giSoFar s.bright (k' :: order)) = none :=
      allRead_eq_none (giSoFar_pending (by simp) (hlt k' (by simp)))
    have hstep := step_readGi_goes_on hs hc (giSoFar_pending (by simp) hk) (by rw [hset, hmore])
    rw [hset] at hstep
    obtain ⟨t, hrun, hend, ht, hother⟩ := runSteps_readGi c rest (k' :: order)
      (setCall c (.gi (giSoFar s.bright (k' :: order))) (afterHead s)) (by simp) hnodup'
      (fun j hj => hlt j (List.mem_cons_of_mem k hj)) (callOf_setCall c _ (afterHead s)) (by simp [afterHead, hs])
    exact ⟨t, (runSteps_next hstep _).trans hrun, hend, ht,
      fun d hd => (hother d hd).trans (callOf_setCall_other hd _ _)⟩

/-- Settles O52: at the call's beginning every channel is still to be read. -/
theorem getGiReturnsTheLevelsInAnyReadOrder : Obligations.GetGiReturnsTheLevelsInAnyReadOrder := by
  intro s c order rest hnch hlen hc hperm hs
  have hlength : order.length = s.params.nch := by rw [hperm.length_eq, List.length_range]
  have hmem (j : Nat) : j ∈ order ↔ j < s.bright.length := by rw [hperm.mem_iff, List.mem_range, hlen]
  rw [← hlen, ← giSoFar_start fun j hj => (hmem j).2 hj] at hc
  rw [← hlength]
  exact runSteps_readGi c rest order s (List.ne_nil_of_length_pos (hlength ▸ hnch)) (hperm.nodup_iff.2 List.nodup_range)
    (fun j hj => (hmem j).1 hj) hc hs

/-! ### A run of reads of `get_stats` -/

/-- The call has read the fields that are not in `order` as they are in s. -/
def StatsReading (s : State) (order : List StatField) (got : StatsPart) : Prop :=
  ∀ f ∈ statFields s.params, got.taken f = if f ∈ order then none else some (statValue s f)

theorem StatsReading.read {s : State} {order : List StatField} {got : StatsPart} {f : StatField}
    (h : StatsReading s (f :: order) got) (hf : f ∉ order) : StatsReading s order (got.take s f) := by
  intro g hg
  by_cases hgf : g = f
  · subst hgf; rw [take_taken, if_neg hf]
  · rw [take_taken_other got s hgf, h g hg]
    simp [hgf]

/-- A record that holds every field's value is the record of the diagnostics. -/
theorem eq_statsNow {s : State} {v : Stats} (hv : ∀ g ∈ statFields s.params, v.value g = some (statValue s g))
    (hdiag : v.diag.isSome = s.params.diag) : v = statsNow s := by
  obtain ⟨m, e, o, a, d⟩ := v
  have hm : m = s.maxDepth := Option.some.inj (hv .maxQueueDepth (by simp [statFields]))
  have he : e = s.eventCount := Option.some.inj (hv .eventCount (by simp [statFields]))
  have ha : a = s.addressErrorCount := Option.some.inj (hv .addressErrors (by simp [statFields]))
  have ho : o = s.overflowFlag := by
    have htoNat : o.toNat = s.overflowFlag.toNat := Option.some.inj (hv .overflow (by simp [statFields]))
    revert htoNat
    cases o <;> cases s.overflowFlag <;> simp
  subst hm he ho ha
  cases d with
  | none => simp_all [statsNow]
  | some d =>
    obtain ⟨r, k, z, t⟩ := d
    have hd : s.params.diag = true := hdiag.symm
    have hr : r = s.rowsDetected := Option.some.inj (hv .rows (by simp [statFields, hd]))
    have hk : k = s.colsDetected := Option.some.inj (hv .cols (by simp [statFields, hd]))
    have hz : z = s.zcDetected := Option.some.inj (hv .zeroCrossings (by simp [statFields, hd]))
    have ht : t = s.triacDetected := Option.some.inj (hv .triacEvents (by simp [statFields, hd]))
    subst hr hk hz ht
    simp [statsNow, hd]

/-- A call with nothing left to be read returns the record. -/
theorem StatsReading.done_nil {s : State} {got : StatsPart} (h : StatsReading s [] got) :
    got.done s.params.diag = some (statsNow s) := by
  obtain ⟨v, hdone, hv, hdiag⟩ := done_eq_some got s.params fun g hg => by simp [h g hg]
  rw [hdone, eq_statsNow (fun g hg => by simp [hv g hg, h g hg]) hdiag]

theorem StatsReading.done_cons {s : State} {got : StatsPart} {f : StatField} {order : List StatField}
    (h : StatsReading s (f :: order) got) (hf : f ∈ statFields s.params) : got.done s.params.diag = none :=
  done_eq_none got s.params hf (by simp [h f hf])

theorem statValue_setCall (c : Ctx) (k : Call) (s : State) (f : StatField) :
    statValue (setCall c k (afterHead s)) f = statValue s f := by
  cases f <;> rfl

/-- The reads still to come, in their order, return the record. -/
theorem runSteps_readStat (c : Ctx) (rest : List Event) :
    ∀ (order : List StatField) (s : State) (got : StatsPart), order ≠ [] → order.Nodup →
      (∀ f ∈ order, f ∈ statFields s.params) → StatsReading s order got → callOf c s = some (.stats got) →
      s.script = order.map (Event.readStat c) ++ rest →
      ∃ t, runSteps order.length s = .next t ∧ callOf c t = none ∧
        t = { s with script := rest, out := .stats c (statsNow s) :: s.out, calls := t.calls } ∧
        ∀ d, d ≠ c → callOf d t = callOf d s
  | [], _, _, hne, _, _, _, _, _ => absurd rfl hne
  | [f], s, got, _, _, hmem, hread, hc, hs => by
    have hf := hmem f (by simp)
    have hstep := step_readStat_returns hs hc hf (by simp [hread f hf]) (hread.read (by simp)).done_nil
    refine ⟨_, runSteps_next hstep 0, callOf_endCall c _, ?_, fun d hd => callOf_endCall_other hd _⟩
    simp [emit, endCall, afterHead, hs]
  | f :: f' :: order, s, got, _, hnodup, hmem, hread, hc, hs => by
    have hf := hmem f (by simp)
    obtain ⟨hfnot, hnodup'⟩ := List.nodup_cons.1 hnodup
    have hread' := hread.read hfnot
    have hstep := step_readStat_goes_on hs hc hf (by simp [hread f hf]) (hread'.done_cons (hmem f' (by simp)))
    obtain ⟨t, hrun, hend, ht, hother⟩ := runSteps_readStat c rest (f' :: order)
      (setCall c (.stats (got.take s f)) (afterHead s)) (got.take s f) (by simp) hnodup'
      (fun g hg => hmem g (List.mem_cons_of_mem f hg)) (fun g hg => by rw [statValue_setCall]; exact hread' g hg)
      (callOf_setCall c _ (afterHead s)) (by simp [afterHead, hs])
    exact ⟨t, (runSteps_next hstep _).trans hrun, hend, ht,
      fun d hd => (hother d hd).trans (callOf_setCall_other hd _ _)⟩

theorem statFields_nodup (p : Params) : (statFields p).Nodup := by
  unfold statFields
  split <;> decide

/-- Settles O53: at the call's beginning every field that exists is still to be read. -/
theorem getStatsReturnsTheRecordInAnyReadOrder : Obligations.GetStatsReturnsTheRecordInAnyReadOrder := by
  intro s c order rest hc hperm hs
  have hne : order ≠ [] := List.ne_nil_of_mem (hperm.mem_iff.2 (by simp [statFields] : StatField.overflow ∈ _))
  have hread : StatsReading s order {} := fun f hf => by
    rw [if_pos (hperm.mem_iff.2 hf)]
    cases f <;> rfl
  exact runSteps_readStat c rest order s {} hne (hperm.nodup_iff.2 (statFields_nodup _)) (fun f hf => hperm.mem_iff.1 hf)
    hread hc hs

end Sys2Proof.Machine
end

section
/-! PROOFS. The bound on stopping (R278, R280): with `enable` 0 and no reader in the way every served action brings the decoder
closer to STOPPED, and at most one of them pops a word. -/

namespace Sys2Proof.Machine

/-! ### The decoder's step always answers a state -/

/-- Every bus word's meaning answers a state. -/
theorem exec_decodeWord_next (p : Params) (w : BusWord) (s : State) : ∃ t, exec (decodeWord p w) s = .next t := by
  have bank (i : Fin 4) (d : Byte) : ∃ t, exec (solWord i d) s = .next t := by
    rw [exec_solWord]
    rcases routeSol_cases i d s with ⟨-, he⟩ | ⟨-, -, he⟩ | ⟨-, -, he⟩ <;> exact ⟨_, he⟩
  rcases decodeWord_cases p w with ⟨d, hi⟩ | ⟨d, hi⟩ | ⟨d, hi⟩ | ⟨d, hi⟩ | ⟨d, hi⟩ | ⟨d, hi⟩ | ⟨d, hi⟩ | ⟨a, d, hi⟩ <;>
    rw [hi]
  · exact ⟨_, exec_triacs d s⟩
  · exact bank 0 d
  · exact bank 1 d
  · exact bank 2 d
  · exact bank 3 d
  · exact ⟨_, exec_lcol d s⟩
  · rcases execLrow_cases d s with ⟨-, he⟩ | ⟨_, -, -, he⟩ | ⟨_, -, -, he⟩ <;> exact ⟨_, he⟩
  · exact ⟨_, exec_invalid a d s⟩

/-- On its turn the decoder is neither refused nor at fault. -/
theorem step_decoder_next {s : State} (ht : decoderTurn s = true) : ∃ t, step s = .next t := by
  cases hp : s.ph with
  | stopped => exact ⟨_, step_stopped ht hp⟩
  | check => exact ⟨_, step_check ht hp⟩
  | zcdrain =>
    cases hz : s.zq with
    | nil => exact ⟨_, step_drained ht hp hz⟩
    | cons m rest => exact ⟨_, step_markerTaken ht hp hz⟩
  | poll => exact ⟨_, step_poll ht hp⟩
  | dispatch => rw [step_dispatch ht hp]; exact exec_decodeWord_next _ _ _
  | notifyLamp => exact ⟨_, step_notifyLamp ht hp⟩
  | cbLamp => exact ⟨_, step_inCallback ht (.inl hp)⟩
  | notifySol => exact ⟨_, step_notifySol ht hp⟩
  | cbSol => exact ⟨_, step_inCallback ht (.inr hp)⟩

/-! ### A block that is about to stop -/

/-- The situation of R278: `enable` is 0, nothing is scheduled, no reader holds a lock, and a callback can return. -/
structure Stopping (s : State) : Prop where
  inv : Inv s
  script : s.script = []
  enable : s.enable = false
  lampLock : s.lampLock = none
  solLock : s.solLock = none
  callback : callOf .callback s = none

/-- No callback runs and none will be called. -/
structure Quiet (s : State) : Prop where
  lampCb : s.lampCb = none
  solCb : s.solCb = none
  notInside : inCallback s = false

/-- The decoder can still pop a word in this iteration. -/
def BeforePoll (s : State) : Prop := s.ph = .zcdrain ∨ s.ph = .poll

/-- The served actions left: the markers, the phases of one iteration and the returns of its callbacks. -/
def servedBudget (s : State) : Nat :=
  match s.ph with
  | .stopped => 0
  | .check => 1
  | .cbSol => 2
  | .notifySol => 3
  | .cbLamp => 4
  | .notifyLamp => 5
  | .dispatch => 6
  | .poll => 7
  | .zcdrain => s.zq.length + 8

/-- The steps left where no callback is called: the markers and the phases of one iteration. -/
def quietBudget (s : State) : Nat :=
  match s.ph with
  | .stopped => 0
  | .check => 1
  | .cbSol => 0
  | .notifySol => 2
  | .cbLamp => 0
  | .notifyLamp => 3
  | .dispatch => 4
  | .poll => 5
  | .zcdrain => s.zq.length + 6

theorem servedBudget_le (s : State) : servedBudget s ≤ s.zq.length + 8 := by
  unfold servedBudget
  split <;> omega

theorem quietBudget_le (s : State) : quietBudget s ≤ s.zq.length + 6 := by
  unfold quietBudget
  split <;> omega

/-- One served action on the way to STOPPED. -/
structure StopProgress (s u : State) : Prop where
  served : servedStep s = .next u
  stopping : Stopping u
  budget : servedBudget u < servedBudget s
  words : (u.dq = s.dq ∧ (BeforePoll u → BeforePoll s)) ∨ (BeforePoll s ∧ ¬BeforePoll u ∧ u.dq = s.dq.tail)
  quiet : Quiet s → Quiet u ∧ quietBudget u < quietBudget s ∧ step s = .next u

theorem afterHead_of_nil {s : State} (h : s.script = []) : afterHead s = s := by
  rw [afterHead, h, List.tail_nil, ← h]

/-! ### The return of a callback -/

theorem servedStep_inCallback {s u : State} (hs : Stopping s) (hu : callbackReturned s = some u) :
    servedStep s = .next u := by
  have hin : inCallback s = true := inCallback_iff.2 ((callbackReturned_cases hu).imp And.left And.left)
  have hhead : afterHead { s with script := .callbackReturn :: s.script } = s := rfl
  rw [servedStep, if_pos hin]
  exact step_callbackReturn rfl hs.callback (by simp [hs.lampLock]) (by simp [hs.solLock]) (by rwa [hhead])

theorem stopProgress_inCallback {s : State} (hs : Stopping s) (hin : inCallback s = true) : ∃ u, StopProgress s u := by
  have hnot : ¬Quiet s := fun hq => by simp [hq.notInside] at hin
  rcases inCallback_iff.1 hin with hp | hp
  · exact ⟨{ s with ph := .notifySol },
      { served := servedStep_inCallback hs (by simp [callbackReturned, hp, goTo])
        stopping := { hs with inv := (EventMove.lampReturned hp).inv hs.inv }
        budget := by simp [servedBudget, hp]
        words := .inl ⟨rfl, by simp [BeforePoll]⟩
        quiet := fun hq => absurd hq hnot }⟩
  · exact ⟨{ s with ph := .check },
      { served := servedStep_inCallback hs (by simp [callbackReturned, hp, goTo])
        stopping := { hs with inv := (EventMove.solReturned hp).inv hs.inv }
        budget := by simp [servedBudget, hp]
        words := .inl ⟨rfl, by simp [BeforePoll]⟩
        quiet := fun hq => absurd hq hnot }⟩

/-! ### The decoder's moves on the way -/

theorem DecoderMove.script_calls_eq {s u : State} (h : DecoderMove s u) : u.script = s.script ∧ u.calls = s.calls := by
  cases h <;> simp

theorem DecoderMove.stopping {s u : State} (h : DecoderMove s u) (hs : Stopping s) : Stopping u := by
  have hk := h.keepsControl
  obtain ⟨hscript, hcalls⟩ := h.script_calls_eq
  exact
    { inv := h.inv hs.inv
      script := hscript.trans hs.script
      enable := hk.enable.trans hs.enable
      lampLock := hk.lampLock.trans hs.lampLock
      solLock := hk.solLock.trans hs.solLock
      callback := by rw [callOf, hcalls]; exact hs.callback }

/-- Only the POLL pops a word, and no phase after it leads back to one. -/
theorem DecoderMove.words {s u : State} (h : DecoderMove s u) (hs : Stopping s) :
    (u.dq = s.dq ∧ (BeforePoll u → BeforePoll s)) ∨ (BeforePoll s ∧ ¬BeforePoll u ∧ u.dq = s.dq.tail) := by
  cases h
  case polled w rest hpoll hq => exact .inr ⟨.inr hpoll, by simp [BeforePoll], by simp [hq]⟩
  case begins he => simp [hs.enable] at he
  case rests => exact .inl ⟨rfl, id⟩
  case solWaits => exact .inl ⟨rfl, id⟩
  case lrowWaits => exact .inl ⟨rfl, id⟩
  all_goals exact .inl ⟨by simp, by simp [BeforePoll, *]⟩

theorem not_resting {s : State} (hp : s.ph ≠ .stopped) (hin : inCallback s = false) :
    ¬(s.ph = .stopped ∨ s.ph = .cbLamp ∨ s.ph = .cbSol) := by
  rintro (hr | hr)
  · exact hp hr
  · simp [inCallback_iff.2 hr] at hin

section
variable {s u : State} (h : DecoderMove s u) (hs : Stopping s) (hp : s.ph ≠ .stopped) (hin : inCallback s = false)
include h hs hp hin

/-- A block about to stop takes none of the moves that rest, wait or begin another iteration. -/
theorem DecoderMove.servedBudget_lt : servedBudget u < servedBudget s := by
  cases h
  case rests hr => exact absurd hr (not_resting hp hin)
  case begins he => simp [hs.enable] at he
  case solWaits hl => exact absurd hs.solLock hl
  case lrowWaits hl => exact absurd hs.lampLock hl
  all_goals simp [servedBudget, *]

/-- With no slot set no move calls a callback, and each is one step closer. -/
theorem DecoderMove.quiet (hq : Quiet s) : Quiet u ∧ quietBudget u < quietBudget s := by
  obtain ⟨hlamp, hsol, -⟩ := hq
  cases h
  case rests hr => exact absurd hr (not_resting hp hin)
  case begins he => simp [hs.enable] at he
  case solWaits hl => exact absurd hs.solLock hl
  case lrowWaits hl => exact absurd hs.lampLock hl
  case lampCalled hc => simp [hlamp] at hc
  case solCalled hc => simp [hsol] at hc
  all_goals exact ⟨⟨by simp [hlamp], by simp [hsol], by simp [inCallback]⟩, by simp [quietBudget, *]⟩

end

theorem stopProgress_decoder {s : State} (hs : Stopping s) (hp : s.ph ≠ .stopped) (hin : inCallback s = false) :
    ∃ u, StopProgress s u := by
  have ht : decoderTurn s = true := by simp [decoderTurn, hs.script]
  obtain ⟨u, hu⟩ := step_decoder_next ht
  have hm : DecoderMove s u := by
    rw [step_decoder ht, afterHead_of_nil hs.script] at hu
    exact decoder_move hu
  refine ⟨u, ?_, hm.stopping hs, hm.servedBudget_lt hs hp hin, hm.words hs, fun hq => ?_⟩
  · rw [servedStep, hin, if_neg Bool.false_ne_true, hu]
  · obtain ⟨hq', hlt⟩ := hm.quiet hs hp hin hq
    exact ⟨hq', hlt, hu⟩

/-! ### The run to STOPPED -/

/-- Where the run ends: at STOPPED, with at most one word popped, and by the plain run where no callback is called. -/
structure StopsAfter (s : State) (n : Nat) (t : State) : Prop where
  budget : n ≤ servedBudget s
  run : runServed n s = .next t
  stopped : t.ph = .stopped
  running : t.running = false
  words : t.dq = s.dq ∨ (BeforePoll s ∧ t.dq = s.dq.tail)
  quiet : Quiet s → n ≤ quietBudget s ∧ runSteps n s = .next t

theorem StopProgress.stopsAfter {s u t : State} {n : Nat} (hprog : StopProgress s u) (h : StopsAfter u n t) :
    StopsAfter s (n + 1) t where
  budget := h.budget.trans_lt hprog.budget
  run := by rw [runServed, hprog.served]; exact h.run
  stopped := h.stopped
  running := h.running
  words := by
    rcases hprog.words with ⟨hdq, hbefore⟩ | ⟨hbefore, hafter, hdq⟩
    · exact h.words.imp (fun hw => hw.trans hdq) fun ⟨hb, hw⟩ => ⟨hbefore hb, hdq ▸ hw⟩
    · exact .inr ⟨hbefore, (h.words.resolve_right fun hw => hafter hw.1).trans hdq⟩
  quiet hq := by
    obtain ⟨hq', hlt, hstep⟩ := hprog.quiet hq
    obtain ⟨hle, hrun⟩ := h.quiet hq'
    exact ⟨hle.trans_lt hlt, (runSteps_next hstep n).trans hrun⟩

theorem exists_stopsAfter {s : State} (hs : Stopping s) : ∃ n t, StopsAfter s n t := by
  by_cases hp : s.ph = .stopped
  · exact ⟨0, s, Nat.zero_le _, rfl, hp, hs.inv.runningPhase.2 hp, .inl rfl, fun _ => ⟨Nat.zero_le _, rfl⟩⟩
  · have hprogress : ∃ u, StopProgress s u := by
      cases hin : inCallback s with
      | true => exact stopProgress_inCallback hs hin
      | false => exact stopProgress_decoder hs hp hin
    obtain ⟨u, hu⟩ := hprogress
    have hbudget := hu.budget
    obtain ⟨n, t, ht⟩ := exists_stopsAfter hu.stopping
    exact ⟨n + 1, t, hu.stopsAfter ht⟩
termination_by servedBudget s

/-- Settles O46: the run to STOPPED is no longer than its budget, which the phase and the markers waiting bound. -/
theorem stopIsReachedWithinOneIteration : Obligations.StopIsReachedWithinOneIteration := by
  intro s hi hscript he hl hs hc
  obtain ⟨n, t, h⟩ := exists_stopsAfter ⟨hi, hscript, he, hl, hs, hc⟩
  refine ⟨n, t, h.budget.trans (servedBudget_le s), h.run, h.running, h.stopped, h.words.imp_right And.right, ?_⟩
  intro hlamp hsol hin
  obtain ⟨hle, hrun⟩ := h.quiet ⟨hlamp, hsol, hin⟩
  exact ⟨hle.trans (quietBudget_le s), hrun⟩

end Sys2Proof.Machine
end
